-- ==== Sys2Proof/Word.lean ====
section
/-! DEFINITION. The two word types of the CPU12: a byte of memory or of an accumulator, and a 16-bit word of an
index register, an address or the program counter (R4). -/

namespace Sys2Proof

/-- Eight bits: a memory byte, accumulators A and B, the condition code register (R4). -/
abbrev Byte := BitVec 8

/-- Sixteen bits: D, X, Y, SP, PC and every logical address (R4). -/
abbrev Word := BitVec 16

end Sys2Proof
end

