-- ==== Sys2Proof/Config.lean ====
section
/-! DEFINITION. What an implementation or a platform fixes (R5, D1): the parameters of the model as plain data, and
the free values: opaque constants without a body, applied to the counter `fresh` of the state, which stand for every
value that the spec calls unspecified or "any value" (U1, U2, U4, U9, U10, U14, U16, U18, U19). -/

namespace Sys2Proof

/-- The two variants of the CPU12 family (R2). -/
inductive Variant where
  | hcs12
  | hcs12x
  deriving DecidableEq, Repr

/-- Z after the HCS12X 16-bit instructions with carry: `plain` is `Z <- (r = 0)`, `sticky` is
`Z <- Zold and (r = 0)` (D17). -/
inductive ExtZMode where
  | plain
  | sticky
  deriving DecidableEq, Repr

/-- Which value N and Z of BTAS describe: the byte read, or that byte under the mask (D18). -/
inductive BtasFlagSource where
  | operand
  | masked
  deriving DecidableEq, Repr

/-- What `MemMap` puts at an address (D3): plain memory, memory that drops writes, a device register with read and
write functions, nothing, or one of the two page registers, which are device registers of the platform whose read and
write functions the CPU's state fixes (R57, R58, R712). -/
inductive RegionKind where
  | ram
  | rom
  | device
  | openBus
  | ppageReg
  | gpageReg
  deriving DecidableEq, Repr

/-- One entry of `MemMap`: the logical addresses `lo … hi` hold `kind` (D3). -/
structure Region where
  lo   : Nat
  hi   : Nat
  kind : RegionKind
  deriving DecidableEq, Repr

/-- One entry of `PageTranslate` (D4): while PPAGE is in `pageLo … pageHi`, logical addresses `lo … hi` lie at location
`base + PPAGE * size + (address - lo)`. Addresses and pages are finitely many, so a list of such entries is any
function of address and PPAGE, one entry for one address and one page if need be. -/
structure PageWindow where
  lo     : Nat
  hi     : Nat
  base   : Nat
  size   : Nat
  pageLo : Nat := 0
  pageHi : Nat := 255
  deriving DecidableEq, Repr

/-- One entry of `GlobalTranslate` (R10, R84, D5): where the concatenation GPAGE:ea lies in `lo … hi`, the global
address of `ea` is `base` plus its distance from `lo`. Pages and addresses are finitely many, so a list of such entries
is any function of page and address, one entry for one pair if need be. -/
structure TranslateWindow where
  lo   : Nat
  hi   : Nat
  base : Nat
  deriving DecidableEq, Repr

/-- What an entry of `MemMap` puts at its global addresses (R84, D5): the logical addresses from `base` on, with all
that `MemMap` and `PageTranslate` have there; the locations from `base` on of the store behind the logical space, as
memory of a kind; or the locations from `base` on of the global store, as memory of a kind. -/
inductive GlobalTarget where
  | logical (base : Nat)
  | logicalStore (kind : RegionKind) (base : Nat)
  | globalStore (kind : RegionKind) (base : Nat)
  deriving DecidableEq, Repr

/-- One entry of what `MemMap` has in the global space (R84, D5): the global addresses `lo … hi` are the places of
`target`, in order. -/
structure GlobalWindow where
  lo     : Nat
  hi     : Nat
  target : GlobalTarget
  deriving DecidableEq, Repr

/-- The elements of `Pending`: one for each vector of R661 other than SWI and the unimplemented opcode trap (R62).
`device k` is the device-specific source with vector `$FF00 + 2*k`. -/
inductive Request where
  | por
  | clockMonitor
  | cop
  | xirq
  | irq
  | device (k : Fin 121)
  deriving DecidableEq, Repr

/-- `ResetValues` (D8): what a reset gives every state element that the reset sequence does not fix (R65, R700).
`none` leaves the element as it is. -/
structure ResetValues where
  a : Option Byte := none
  b : Option Byte := none
  x : Option Word := none
  y : Option Word := none
  sp : Option Word := none
  h : Option Bool := none
  n : Option Bool := none
  z : Option Bool := none
  v : Option Bool := none
  c : Option Bool := none
  ccrh : Option Byte := none
  ppage : Option Byte := none
  gpage : Option Nat := none
  tmp1 : Option Word := none
  tmp2 : Option Word := none
  tmp3 : Option Word := none
  mem : Option (List Host.Cell) := none
  gmem : Option (List Host.Cell) := none
  deriving DecidableEq, Repr

/-- The parameters a model takes (R5, D1). They are fixed for a machine: no step changes them. The defaults are
those of section 2 of `92_eei_decisions.md`. -/
structure Params where
  /-- R2. -/
  variant : Variant := .hcs12x
  /-- `CCRH_WMASK`: the writable bits of CCRH (D6). -/
  ccrhWmask : Byte := 0xFF#8
  /-- `GPAGE_BITS` (D5). -/
  gpageBits : Nat := 7
  /-- `BdmEnabled` (D12). -/
  bdmEnabled : Bool := false
  /-- `ExtZMode` (D17). -/
  extZMode : ExtZMode := .plain
  /-- `BtasFlagSource` (D18). -/
  btasFlagSource : BtasFlagSource := .operand
  /-- `IrqSources`: the asynchronous sources that exist, highest priority first (D10). -/
  irqSources : List Request := [.xirq, .irq]
  /-- `QueueDepth` in bytes (D15). -/
  queueDepth : Nat := 8
  /-- `MemMap`: the first region that holds an address says what lies there; an address in no region is RAM (D3). -/
  memMap : List Region := []
  /-- `PageTranslate`: the identity where no window holds the address (D4). -/
  pageWindows : List PageWindow := []
  /-- `GlobalTranslate`: the concatenation GPAGE:address where no window holds it (D5). -/
  globalTranslate : List TranslateWindow := []
  /-- What `MemMap` has in the global space: a global address in no window is a location of plain global memory (R84).
  -/
  globalWindows : List GlobalWindow := []
  /-- `ResetValues` (D8). -/
  resetValues : ResetValues := {}
  deriving DecidableEq, Repr

namespace Config

/-- `AddXH`: H after ADDX, ADDY, ADED, ADEX, ADEY (R308, D20). A free value. -/
opaque addXH : Nat → Bool

/-- `DaaV`: V after DAA (R334, U1). A free value. -/
opaque daaV : Nat → Bool

/-- H where the spec leaves it undefined: MEM, REV, REVW, WAV, wavr (R560, U1). A free value. -/
opaque freeH : Nat → Bool

/-- N where the spec leaves it undefined (U1, U2). A free value. -/
opaque freeN : Nat → Bool

/-- Z where the spec leaves it undefined (U1, U2). A free value. -/
opaque freeZ : Nat → Bool

/-- V where the spec leaves it undefined (U1, U2). A free value. -/
opaque freeV : Nat → Bool

/-- C where the spec leaves it undefined (U1). A free value. -/
opaque freeC : Nat → Bool

/-- D after a division that cannot be done (U2) and after WAV without defined sums (U14). A free value. -/
opaque freeD : Nat → Word

/-- X after IDIVS by zero (U2) and after WAV without defined sums (U14). A free value. -/
opaque freeX : Nat → Word

/-- Y after WAV without defined sums (U14). A free value. -/
opaque freeY : Nat → Word

/-- TMP1 after any step that is not TFR, EXG or SEX (R59, D13, U16). A free value. -/
opaque freeTmp1 : Nat → Word

/-- TMP2 after any step that is not TFR, EXG or SEX (R59, D13, U16). A free value. -/
opaque freeTmp2 : Nat → Word

/-- TMP3 after any step that is not TFR, EXG or SEX (R59, D13, U16). A free value. -/
opaque freeTmp3 : Nat → Word

/-- Whether a store of a register through a postbyte that auto-modifies that register stores the value from before
the update (R140 point 3, U9). A free value. -/
opaque storesOldBase : Nat → Bool

/-- Whether an LEA whose postbyte post-modifies its own destination leaves the effective address in it, and not the
updated base (R140 point 4, U9). A free value. -/
opaque leaKeepsAddress : Nat → Bool

/-- The byte read from a logical address with nothing behind it (D3, U19). A free value. -/
opaque openBus : Nat → Nat → Byte

/-- The read function of the platform's devices (D3, R93): the byte that device register number `reg` gives, by the
free-value counter, the register and the state of the devices. A free value: any device. -/
opaque deviceRead : Nat → Nat → Nat → Byte

/-- The side effect of a read (D3, R93): the state of the devices after a read of a register. A free value. -/
opaque deviceAfterRead : Nat → Nat → Nat → Nat

/-- The write function of the platform's devices (D3): their state after a byte is written to a register. A free
value. -/
opaque deviceAfterWrite : Nat → Nat → Nat → Byte → Nat

/-- Whether the byte this many bytes after `PCnext` is prefetched during the step (R61, R710, D3). A free value. -/
opaque prefetched : Nat → Nat → Bool

/-- Of an instruction that a reset abandons, how far each piece of its work had got, by the number of the piece
(R662, D8). A free value. -/
opaque cutShort : Nat → Nat → Nat

/-- Which of the values a byte in the instruction queue may have is the one fetched, at an address (R91, R711, U18).
A free value. -/
opaque stalePick : Nat → Nat → Nat

/-- The three words an interrupted WAV pushes, whose content is not in the source (R566). A free value. -/
opaque wavWord : Nat → Nat → Word

end Config

end Sys2Proof
end

