-- ==== Sys2Proof/Machine/Bits.lean ====
section
/-! DEFINITION. Slicing, concatenation and sign extension (R7) and the byte order of 16-bit values (R81). -/

namespace Sys2Proof

/-- `hi:lo`, the first byte in the high-order position (R7, R81). -/
def wordOf (hi lo : Byte) : Word := hi ++ lo

/-- Bits 15:8 of a word, written `XH`, `YH`, … in the spec (R7). -/
def Word.high (w : Word) : Byte := w.extractLsb' 8 8

/-- Bits 7:0 of a word, written `XL`, `YL`, … in the spec (R7). -/
def Word.low (w : Word) : Byte := w.setWidth 8

/-- `sext_16` of an 8-bit value (R7). -/
def sext8 (b : Byte) : Word := b.signExtend 16

/-- `zext_16` of an 8-bit value (R7). -/
def zext8 (b : Byte) : Word := b.setWidth 16

end Sys2Proof
end

