-- ==== Sys2Proof/Syntax.lean ====
section
/-! DEFINITION. The abstract syntax: one constructor for every mnemonic of `opcode_table.json`, with its operands as
the encoding gives them (R120 to R146). -/

namespace Sys2Proof

/-- Base register of an indexed operand: the two-bit code 00 X, 01 Y, 10 SP, 11 PC (R130). -/
inductive IdxBase where
  | x | y | sp | pc
  deriving DecidableEq, Repr

/-- Register an auto increment or decrement can modify; PC is no choice (R132). -/
inductive IdxReg where
  | x | y | sp
  deriving DecidableEq, Repr

/-- Accumulator used as an unsigned index offset (R136). -/
inductive IdxAcc where
  | a | b | d
  deriving DecidableEq, Repr

/-- An indexed operand: the postbyte `xb` with its extension bytes (R130). -/
inductive Xb where
  /-- 5-bit constant offset, `rr0nnnnn` (R131). -/
  | const5 (base : IdxBase) (n : BitVec 5)
  /-- Auto pre/post increment/decrement, `rr1pnnnn`; `k` is the field `nnnn` (R132). -/
  | auto (reg : IdxReg) (post : Bool) (k : BitVec 4)
  /-- 9-bit constant offset, `111rr00s ff` (R133). -/
  | const9 (base : IdxBase) (n : BitVec 9)
  /-- 16-bit constant offset, `111rr010 ee ff` (R134). -/
  | const16 (base : IdxBase) (n : Word)
  /-- 16-bit offset indexed-indirect, `111rr011 ee ff` (R135). -/
  | indirect16 (base : IdxBase) (n : Word)
  /-- Accumulator offset, `111rr1aa` (R136). -/
  | acc (off : IdxAcc) (base : IdxBase)
  /-- Accumulator D offset indexed-indirect, `111rr111` (R137). -/
  | indirectD (base : IdxBase)
  deriving DecidableEq, Repr

/-- A memory operand: direct (R125), extended (R126) or indexed (R130). -/
inductive Ea where
  | dir (dd : Byte)
  | ext (hhll : Word)
  | idx (xb : Xb)
  deriving DecidableEq, Repr

/-- An 8-bit source operand: immediate (R124) or memory. -/
inductive Src8 where
  | imm (ii : Byte)
  | mem (ea : Ea)
  deriving DecidableEq, Repr

/-- A 16-bit source operand: immediate (R124) or memory. -/
inductive Src16 where
  | imm (jjkk : Word)
  | mem (ea : Ea)
  deriving DecidableEq, Repr

/-- The operand of CALL: an address with a page byte, or one of the two indirect forms, whose page comes from memory
(R144, R620). -/
inductive CallOp where
  | direct (ea : Ea) (pg : Byte)
  | indirect (xb : Xb)
  deriving DecidableEq, Repr

/-- The register codes of the transfer/exchange postbyte: 0 A, 1 B, 2 CCR, 3 TMPx, 4 D, 5 X, 6 Y, 7 SP (R270). -/
inductive XferReg where
  | a | b | ccr | tmp | d | x | y | sp
  deriving DecidableEq, Repr

/-- First operand of SEX, `abc` (R265). -/
inductive ByteReg where
  | a | b | ccr
  deriving DecidableEq, Repr

/-- Second operand of SEX, `dxys` (R265). -/
inductive WideReg where
  | d | x | y | sp
  deriving DecidableEq, Repr

/-- The counter register of a loop primitive: codes 000 A, 001 B, 100 D, 101 X, 110 Y, 111 SP (R141). -/
inductive LoopReg where
  | a | b | d | x | y | sp
  deriving DecidableEq, Repr

/-- An instruction: first the mnemonics with operands, then those without, each in the order of the opcode table.
Relative offsets stand as the offset field of the encoding; `alt` is bit 3 of the
transfer/exchange postbyte. -/
inductive Instr where
  /-- LDAA (R202). -/
  | ldaa (src : Src8)
  /-- LDAB (R203). -/
  | ldab (src : Src8)
  /-- LDD (R204). -/
  | ldd (src : Src16)
  /-- LDS (R205). -/
  | lds (src : Src16)
  /-- LDX (R206). -/
  | ldx (src : Src16)
  /-- LDY (R207). -/
  | ldy (src : Src16)
  /-- STAA (R208). -/
  | staa (ea : Ea)
  /-- STAB (R209). -/
  | stab (ea : Ea)
  /-- STD (R210). -/
  | std (ea : Ea)
  /-- STS (R211). -/
  | sts (ea : Ea)
  /-- STX (R212). -/
  | stx (ea : Ea)
  /-- STY (R213). -/
  | sty (ea : Ea)
  /-- GLDAA (R214). HCS12X only. -/
  | gldaa (ea : Ea)
  /-- GLDAB (R215). HCS12X only. -/
  | gldab (ea : Ea)
  /-- GLDD (R216). HCS12X only. -/
  | gldd (ea : Ea)
  /-- GLDS (R217). HCS12X only. -/
  | glds (ea : Ea)
  /-- GLDX (R218). HCS12X only. -/
  | gldx (ea : Ea)
  /-- GLDY (R219). HCS12X only. -/
  | gldy (ea : Ea)
  /-- GSTAA (R220). HCS12X only. -/
  | gstaa (ea : Ea)
  /-- GSTAB (R221). HCS12X only. -/
  | gstab (ea : Ea)
  /-- GSTD (R222). HCS12X only. -/
  | gstd (ea : Ea)
  /-- GSTS (R223). HCS12X only. -/
  | gsts (ea : Ea)
  /-- GSTX (R224). HCS12X only. -/
  | gstx (ea : Ea)
  /-- GSTY (R225). HCS12X only. -/
  | gsty (ea : Ea)
  /-- LEAS (R226). -/
  | leas (xb : Xb)
  /-- LEAX (R227). -/
  | leax (xb : Xb)
  /-- LEAY (R228). -/
  | leay (xb : Xb)
  /-- CLR (R229). -/
  | clr (ea : Ea)
  /-- CLRW (R232). HCS12X only. -/
  | clrw (ea : Ea)
  /-- MOVB (R260). -/
  | movb (src : Src8) (dst : Ea)
  /-- MOVW (R261). -/
  | movw (src : Src16) (dst : Ea)
  /-- TFR (R263). -/
  | tfr (r1 r2 : XferReg) (alt : Bool)
  /-- EXG (R264). -/
  | exg (r1 r2 : XferReg) (alt : Bool)
  /-- SEX (R265). Another name of words of `TFR` (R171). -/
  | sex (r1 : ByteReg) (r2 : WideReg)
  /-- ADCA (R313). -/
  | adca (src : Src8)
  /-- ADCB (R314). -/
  | adcb (src : Src8)
  /-- ADDA (R315). -/
  | adda (src : Src8)
  /-- ADDB (R316). -/
  | addb (src : Src8)
  /-- ADDD (R317). -/
  | addd (src : Src16)
  /-- ADDX (R318). HCS12X only. -/
  | addx (src : Src16)
  /-- ADDY (R319). HCS12X only. -/
  | addy (src : Src16)
  /-- ADED (R320). HCS12X only. -/
  | aded (src : Src16)
  /-- ADEX (R321). HCS12X only. -/
  | adex (src : Src16)
  /-- ADEY (R322). HCS12X only. -/
  | adey (src : Src16)
  /-- SBCA (R324). -/
  | sbca (src : Src8)
  /-- SBCB (R325). -/
  | sbcb (src : Src8)
  /-- SBED (R326). HCS12X only. -/
  | sbed (src : Src16)
  /-- SBEX (R327). HCS12X only. -/
  | sbex (src : Src16)
  /-- SBEY (R328). HCS12X only. -/
  | sbey (src : Src16)
  /-- SUBA (R329). -/
  | suba (src : Src8)
  /-- SUBB (R330). -/
  | subb (src : Src8)
  /-- SUBD (R331). -/
  | subd (src : Src16)
  /-- SUBX (R332). HCS12X only. -/
  | subx (src : Src16)
  /-- SUBY (R333). HCS12X only. -/
  | suby (src : Src16)
  /-- INC (R335). -/
  | inc (ea : Ea)
  /-- INCW (R338). HCS12X only. -/
  | incw (ea : Ea)
  /-- DEC (R344). -/
  | dec (ea : Ea)
  /-- DECW (R347). HCS12X only. -/
  | decw (ea : Ea)
  /-- NEG (R353). -/
  | neg (ea : Ea)
  /-- NEGW (R356). HCS12X only. -/
  | negw (ea : Ea)
  /-- CMPA (R383). -/
  | cmpa (src : Src8)
  /-- CMPB (R384). -/
  | cmpb (src : Src8)
  /-- CPD (R385). -/
  | cpd (src : Src16)
  /-- CPS (R386). -/
  | cps (src : Src16)
  /-- CPX (R387). -/
  | cpx (src : Src16)
  /-- CPY (R388). -/
  | cpy (src : Src16)
  /-- CPED (R389). HCS12X only. -/
  | cped (src : Src16)
  /-- CPES (R390). HCS12X only. -/
  | cpes (src : Src16)
  /-- CPEX (R391). HCS12X only. -/
  | cpex (src : Src16)
  /-- CPEY (R392). HCS12X only. -/
  | cpey (src : Src16)
  /-- TST (R393). -/
  | tst (ea : Ea)
  /-- TSTW (R396). HCS12X only. -/
  | tstw (ea : Ea)
  /-- BITA (R399). -/
  | bita (src : Src8)
  /-- BITB (R400). -/
  | bitb (src : Src8)
  /-- BITX (R401). HCS12X only. -/
  | bitx (src : Src16)
  /-- BITY (R402). HCS12X only. -/
  | bity (src : Src16)
  /-- ANDA (R422). -/
  | anda (src : Src8)
  /-- ANDB (R423). -/
  | andb (src : Src8)
  /-- ANDX (R424). HCS12X only. -/
  | andx (src : Src16)
  /-- ANDY (R425). HCS12X only. -/
  | andy (src : Src16)
  /-- ORAA (R426). -/
  | oraa (src : Src8)
  /-- ORAB (R427). -/
  | orab (src : Src8)
  /-- ORX (R428). HCS12X only. -/
  | orx (src : Src16)
  /-- ORY (R429). HCS12X only. -/
  | ory (src : Src16)
  /-- EORA (R430). -/
  | eora (src : Src8)
  /-- EORB (R431). -/
  | eorb (src : Src8)
  /-- EORX (R432). HCS12X only. -/
  | eorx (src : Src16)
  /-- EORY (R433). HCS12X only. -/
  | eory (src : Src16)
  /-- COM (R434). -/
  | com (ea : Ea)
  /-- COMW (R437). HCS12X only. -/
  | comw (ea : Ea)
  /-- ANDCC (R440). -/
  | andcc (ii : Byte)
  /-- ORCC (R441). -/
  | orcc (ii : Byte)
  /-- BCLR (R448). -/
  | bclr (ea : Ea) (mm : Byte)
  /-- BSET (R449). -/
  | bset (ea : Ea) (mm : Byte)
  /-- BTAS (R450). HCS12X only. -/
  | btas (ea : Ea) (mm : Byte)
  /-- ASL (R472). -/
  | asl (ea : Ea)
  /-- ASLW (R476). HCS12X only. -/
  | aslw (ea : Ea)
  /-- ASR (R479). -/
  | asr (ea : Ea)
  /-- ASRW (R482). HCS12X only. -/
  | asrw (ea : Ea)
  /-- LSL (R485). Another name of words of `ASL` (R171). -/
  | lsl (ea : Ea)
  /-- LSR (R492). -/
  | lsr (ea : Ea)
  /-- LSRW (R496). HCS12X only. -/
  | lsrw (ea : Ea)
  /-- ROL (R499). -/
  | rol (ea : Ea)
  /-- ROLW (R502). HCS12X only. -/
  | rolw (ea : Ea)
  /-- ROR (R505). -/
  | ror (ea : Ea)
  /-- RORW (R508). HCS12X only. -/
  | rorw (ea : Ea)
  /-- EMACS (R523). -/
  | emacs (hhll : Word)
  /-- MAXA (R540). -/
  | maxa (xb : Xb)
  /-- MAXM (R541). -/
  | maxm (xb : Xb)
  /-- MINA (R542). -/
  | mina (xb : Xb)
  /-- MINM (R543). -/
  | minm (xb : Xb)
  /-- EMAXD (R544). -/
  | emaxd (xb : Xb)
  /-- EMAXM (R545). -/
  | emaxm (xb : Xb)
  /-- EMIND (R546). -/
  | emind (xb : Xb)
  /-- EMINM (R547). -/
  | eminm (xb : Xb)
  /-- TBL (R550). -/
  | tbl (xb : Xb)
  /-- ETBL (R551). -/
  | etbl (xb : Xb)
  /-- BCC (R574). -/
  | bcc (rr : Byte)
  /-- BCS (R575). -/
  | bcs (rr : Byte)
  /-- BEQ (R576). -/
  | beq (rr : Byte)
  /-- BGE (R577). -/
  | bge (rr : Byte)
  /-- BGT (R578). -/
  | bgt (rr : Byte)
  /-- BHI (R579). -/
  | bhi (rr : Byte)
  /-- BHS (R580). Another name of words of `BCC` (R171). -/
  | bhs (rr : Byte)
  /-- BLE (R581). -/
  | ble (rr : Byte)
  /-- BLO (R582). Another name of words of `BCS` (R171). -/
  | blo (rr : Byte)
  /-- BLS (R583). -/
  | bls (rr : Byte)
  /-- BLT (R584). -/
  | blt (rr : Byte)
  /-- BMI (R585). -/
  | bmi (rr : Byte)
  /-- BNE (R586). -/
  | bne (rr : Byte)
  /-- BPL (R587). -/
  | bpl (rr : Byte)
  /-- BRA (R588). -/
  | bra (rr : Byte)
  /-- BRN (R589). -/
  | brn (rr : Byte)
  /-- BVC (R590). -/
  | bvc (rr : Byte)
  /-- BVS (R591). -/
  | bvs (rr : Byte)
  /-- LBCC (R592). -/
  | lbcc (qqrr : Word)
  /-- LBCS (R593). -/
  | lbcs (qqrr : Word)
  /-- LBEQ (R594). -/
  | lbeq (qqrr : Word)
  /-- LBGE (R595). -/
  | lbge (qqrr : Word)
  /-- LBGT (R596). -/
  | lbgt (qqrr : Word)
  /-- LBHI (R597). -/
  | lbhi (qqrr : Word)
  /-- LBHS (R598). Another name of words of `LBCC` (R171). -/
  | lbhs (qqrr : Word)
  /-- LBLE (R599). -/
  | lble (qqrr : Word)
  /-- LBLO (R600). Another name of words of `LBCS` (R171). -/
  | lblo (qqrr : Word)
  /-- LBLS (R601). -/
  | lbls (qqrr : Word)
  /-- LBLT (R602). -/
  | lblt (qqrr : Word)
  /-- LBMI (R603). -/
  | lbmi (qqrr : Word)
  /-- LBNE (R604). -/
  | lbne (qqrr : Word)
  /-- LBPL (R605). -/
  | lbpl (qqrr : Word)
  /-- LBRA (R606). -/
  | lbra (qqrr : Word)
  /-- LBRN (R607). -/
  | lbrn (qqrr : Word)
  /-- LBVC (R608). -/
  | lbvc (qqrr : Word)
  /-- LBVS (R609). -/
  | lbvs (qqrr : Word)
  /-- BRCLR (R610). -/
  | brclr (ea : Ea) (mm : Byte) (rr : Byte)
  /-- BRSET (R611). -/
  | brset (ea : Ea) (mm : Byte) (rr : Byte)
  /-- DBEQ (R612). -/
  | dbeq (r : LoopReg) (off : BitVec 9)
  /-- DBNE (R613). -/
  | dbne (r : LoopReg) (off : BitVec 9)
  /-- IBEQ (R614). -/
  | ibeq (r : LoopReg) (off : BitVec 9)
  /-- IBNE (R615). -/
  | ibne (r : LoopReg) (off : BitVec 9)
  /-- TBEQ (R616). -/
  | tbeq (r : LoopReg) (off : BitVec 9)
  /-- TBNE (R617). -/
  | tbne (r : LoopReg) (off : BitVec 9)
  /-- BSR (R618). -/
  | bsr (rr : Byte)
  /-- JSR (R619). -/
  | jsr (ea : Ea)
  /-- CALL (R620). -/
  | call (op : CallOp)
  /-- JMP (R623). -/
  | jmp (ea : Ea)
  /-- TRAP (R643). -/
  | trap (tn : Byte)
  /-- CLRA (R230). -/
  | clra
  /-- CLRB (R231). -/
  | clrb
  /-- CLRX (R233). HCS12X only. -/
  | clrx
  /-- CLRY (R234). HCS12X only. -/
  | clry
  /-- PSHA (R235). -/
  | psha
  /-- PSHB (R236). -/
  | pshb
  /-- PSHC (R237). -/
  | pshc
  /-- PSHCW (R238). HCS12X only. -/
  | pshcw
  /-- PSHD (R239). -/
  | pshd
  /-- PSHX (R240). -/
  | pshx
  /-- PSHY (R241). -/
  | pshy
  /-- PULA (R242). -/
  | pula
  /-- PULB (R243). -/
  | pulb
  /-- PULC (R244). -/
  | pulc
  /-- PULCW (R245). HCS12X only. -/
  | pulcw
  /-- PULD (R246). -/
  | puld
  /-- PULX (R247). -/
  | pulx
  /-- PULY (R248). -/
  | puly
  /-- TAP (R273). Another name of words of `TFR` (R171). -/
  | tap
  /-- TPA (R274). Another name of words of `TFR` (R171). -/
  | tpa
  /-- TSX (R275). Another name of words of `TFR` (R171). -/
  | tsx
  /-- TSY (R276). Another name of words of `TFR` (R171). -/
  | tsy
  /-- TXS (R277). Another name of words of `TFR` (R171). -/
  | txs
  /-- TYS (R278). Another name of words of `TFR` (R171). -/
  | tys
  /-- XGDX (R279). Another name of words of `EXG` (R171). -/
  | xgdx
  /-- XGDY (R280). Another name of words of `EXG` (R171). -/
  | xgdy
  /-- TAB (R271). -/
  | tab
  /-- TBA (R272). -/
  | tba
  /-- ABA (R310). -/
  | aba
  /-- ABX (R311). Another name of words of `LEAX` (R171). -/
  | abx
  /-- ABY (R312). Another name of words of `LEAY` (R171). -/
  | aby
  /-- SBA (R323). -/
  | sba
  /-- DAA (R334). -/
  | daa
  /-- INCA (R336). -/
  | inca
  /-- INCB (R337). -/
  | incb
  /-- INCX (R339). HCS12X only. -/
  | incx
  /-- INCY (R340). HCS12X only. -/
  | incy
  /-- INX (R341). -/
  | inx
  /-- INY (R342). -/
  | iny
  /-- INS (R343). Another name of words of `LEAS` (R171). -/
  | ins
  /-- DECA (R345). -/
  | deca
  /-- DECB (R346). -/
  | decb
  /-- DECX (R348). HCS12X only. -/
  | decx
  /-- DECY (R349). HCS12X only. -/
  | decy
  /-- DEX (R350). -/
  | dex
  /-- DEY (R351). -/
  | dey
  /-- DES (R352). Another name of words of `LEAS` (R171). -/
  | des
  /-- NEGA (R354). -/
  | nega
  /-- NEGB (R355). -/
  | negb
  /-- NEGX (R357). HCS12X only. -/
  | negx
  /-- NEGY (R358). HCS12X only. -/
  | negy
  /-- CBA (R382). -/
  | cba
  /-- TSTA (R394). -/
  | tsta
  /-- TSTB (R395). -/
  | tstb
  /-- TSTX (R397). HCS12X only. -/
  | tstx
  /-- TSTY (R398). HCS12X only. -/
  | tsty
  /-- COMA (R435). -/
  | coma
  /-- COMB (R436). -/
  | comb
  /-- COMX (R438). HCS12X only. -/
  | comx
  /-- COMY (R439). HCS12X only. -/
  | comy
  /-- CLC (R442). Another name of words of `ANDCC` (R171). -/
  | clc
  /-- CLI (R443). Another name of words of `ANDCC` (R171). -/
  | cli
  /-- CLV (R444). Another name of words of `ANDCC` (R171). -/
  | clv
  /-- SEC (R445). Another name of words of `ORCC` (R171). -/
  | sec
  /-- SEI (R446). Another name of words of `ORCC` (R171). -/
  | sei
  /-- SEV (R447). Another name of words of `ORCC` (R171). -/
  | sev
  /-- ASLA (R473). -/
  | asla
  /-- ASLB (R474). -/
  | aslb
  /-- ASLD (R475). -/
  | asld
  /-- ASLX (R477). HCS12X only. -/
  | aslx
  /-- ASLY (R478). HCS12X only. -/
  | asly
  /-- ASRA (R480). -/
  | asra
  /-- ASRB (R481). -/
  | asrb
  /-- ASRX (R483). HCS12X only. -/
  | asrx
  /-- ASRY (R484). HCS12X only. -/
  | asry
  /-- LSLA (R486). Another name of words of `ASLA` (R171). -/
  | lsla
  /-- LSLB (R487). Another name of words of `ASLB` (R171). -/
  | lslb
  /-- LSLD (R488). Another name of words of `ASLD` (R171). -/
  | lsld
  /-- LSRA (R493). -/
  | lsra
  /-- LSRB (R494). -/
  | lsrb
  /-- LSRD (R495). -/
  | lsrd
  /-- LSRX (R497). HCS12X only. -/
  | lsrx
  /-- LSRY (R498). HCS12X only. -/
  | lsry
  /-- ROLA (R500). -/
  | rola
  /-- ROLB (R501). -/
  | rolb
  /-- ROLX (R503). HCS12X only. -/
  | rolx
  /-- ROLY (R504). HCS12X only. -/
  | roly
  /-- RORA (R506). -/
  | rora
  /-- RORB (R507). -/
  | rorb
  /-- RORX (R509). HCS12X only. -/
  | rorx
  /-- RORY (R510). HCS12X only. -/
  | rory
  /-- MUL (R520). -/
  | mul
  /-- EMUL (R521). -/
  | emul
  /-- EMULS (R522). -/
  | emuls
  /-- EDIV (R524). -/
  | ediv
  /-- EDIVS (R525). -/
  | edivs
  /-- FDIV (R526). -/
  | fdiv
  /-- IDIV (R527). -/
  | idiv
  /-- IDIVS (R528). -/
  | idivs
  /-- MEM (R562). -/
  | mem
  /-- REV (R563). -/
  | rev
  /-- REVW (R564). -/
  | revw
  /-- WAV (R565). -/
  | wav
  /-- wavr (R566). -/
  | wavr
  /-- RTC (R621). -/
  | rtc
  /-- RTS (R622). -/
  | rts
  /-- NOP (R640). -/
  | nop
  /-- BGND (R641). -/
  | bgnd
  /-- SWI (R642). -/
  | swi
  /-- RTI (R644). -/
  | rti
  /-- WAI (R645). -/
  | wai
  /-- STOP (R646). -/
  | stop
  deriving DecidableEq, Repr

end Sys2Proof
end

