-- ==== Sys2Proof/WellFormed.lean ====
section
/-! DEFINITION. Which instructions the encoding has: the operand forms each mnemonic accepts (R139), what exists on
each variant (R161, R162, R172), and which constructors are only another name of words of another (R171). -/

namespace Sys2Proof

/-- Whether the variant is HCS12X (R2). -/
def Variant.isHcs12x : Variant → Bool
  | .hcs12 => false
  | .hcs12x => true

/-- The indirect forms `[n,r]` and `[D,r]` (R135, R137). -/
def Xb.isIndirect : Xb → Bool
  | .const5 _ _ | .auto _ _ _ | .const9 _ _ | .const16 _ _ | .acc _ _ => false
  | .indirect16 _ _ | .indirectD _ => true

/-- The forms without extension bytes and without indirection, mode IDX (third row of the table of R139). -/
def Xb.isPlainIdx : Xb → Bool
  | .const5 _ _ | .auto _ _ _ | .acc _ _ => true
  | .const9 _ _ | .const16 _ _ | .indirect16 _ _ | .indirectD _ => false

/-- The instruction has no DIR row (R139). -/
def Ea.notDirect : Ea → Bool
  | .dir _ => false
  | .ext _ | .idx _ => true

/-- The instruction has no indirect row (second row of the table of R139). -/
def Ea.notIndirect : Ea → Bool
  | .dir _ | .ext _ => true
  | .idx xb => !xb.isIndirect

/-- A memory operand of MOVB or MOVW: extended, or indexed, on HCS12 by a plain postbyte only (R139, R260, U6). -/
def Ea.moveForm (v : Variant) : Ea → Bool
  | .dir _ => false
  | .ext _ => true
  | .idx xb => v.isHcs12x || xb.isPlainIdx

/-- A source of MOVB (R260). -/
def Src8.moveForm (v : Variant) : Src8 → Bool
  | .imm _ => true
  | .mem ea => ea.moveForm v

/-- A source of MOVW (R261). -/
def Src16.moveForm (v : Variant) : Src16 → Bool
  | .imm _ => true
  | .mem ea => ea.moveForm v

/-- The forms of CALL (R144): an indirect postbyte carries no page byte, every other form does. -/
def CallOp.wellFormed : CallOp → Bool
  | .direct ea _ => ea.notDirect && ea.notIndirect
  | .indirect xb => xb.isIndirect

/-- The page-2 opcodes that the map of the variant labels TRAP (R145). -/
def Variant.trapNumber (v : Variant) (tn : Byte) : Bool :=
  match v with
  | .hcs12 => (0x30 ≤ tn.toNat && tn.toNat ≤ 0x39) || 0x40 ≤ tn.toNat
  | .hcs12x =>
    [0x30, 0x31, 0x32, 0x33, 0x34, 0x49, 0x4A, 0x4B, 0x4C, 0x4D, 0x4E, 0x4F, 0x59, 0x81, 0x86, 0x91, 0xA1, 0xA7,
      0xB1, 0xB7, 0xC1, 0xC6, 0xCC, 0xCD, 0xCE, 0xCF, 0xD1, 0xE1, 0xF1].contains tn.toNat

/-- The instructions that exist on HCS12X only; on HCS12 their opcodes are TRAP cells (R172, R164). -/
def Instr.hcs12xOnly : Instr → Bool
  | .ldaa _ => false
  | .ldab _ => false
  | .ldd _ => false
  | .lds _ => false
  | .ldx _ => false
  | .ldy _ => false
  | .staa _ => false
  | .stab _ => false
  | .std _ => false
  | .sts _ => false
  | .stx _ => false
  | .sty _ => false
  | .gldaa _ => true
  | .gldab _ => true
  | .gldd _ => true
  | .glds _ => true
  | .gldx _ => true
  | .gldy _ => true
  | .gstaa _ => true
  | .gstab _ => true
  | .gstd _ => true
  | .gsts _ => true
  | .gstx _ => true
  | .gsty _ => true
  | .leas _ => false
  | .leax _ => false
  | .leay _ => false
  | .clr _ => false
  | .clrw _ => true
  | .movb _ _ => false
  | .movw _ _ => false
  | .tfr _ _ _ => false
  | .exg _ _ _ => false
  | .sex _ _ => false
  | .adca _ => false
  | .adcb _ => false
  | .adda _ => false
  | .addb _ => false
  | .addd _ => false
  | .addx _ => true
  | .addy _ => true
  | .aded _ => true
  | .adex _ => true
  | .adey _ => true
  | .sbca _ => false
  | .sbcb _ => false
  | .sbed _ => true
  | .sbex _ => true
  | .sbey _ => true
  | .suba _ => false
  | .subb _ => false
  | .subd _ => false
  | .subx _ => true
  | .suby _ => true
  | .inc _ => false
  | .incw _ => true
  | .dec _ => false
  | .decw _ => true
  | .neg _ => false
  | .negw _ => true
  | .cmpa _ => false
  | .cmpb _ => false
  | .cpd _ => false
  | .cps _ => false
  | .cpx _ => false
  | .cpy _ => false
  | .cped _ => true
  | .cpes _ => true
  | .cpex _ => true
  | .cpey _ => true
  | .tst _ => false
  | .tstw _ => true
  | .bita _ => false
  | .bitb _ => false
  | .bitx _ => true
  | .bity _ => true
  | .anda _ => false
  | .andb _ => false
  | .andx _ => true
  | .andy _ => true
  | .oraa _ => false
  | .orab _ => false
  | .orx _ => true
  | .ory _ => true
  | .eora _ => false
  | .eorb _ => false
  | .eorx _ => true
  | .eory _ => true
  | .com _ => false
  | .comw _ => true
  | .andcc _ => false
  | .orcc _ => false
  | .bclr _ _ => false
  | .bset _ _ => false
  | .btas _ _ => true
  | .asl _ => false
  | .aslw _ => true
  | .asr _ => false
  | .asrw _ => true
  | .lsl _ => false
  | .lsr _ => false
  | .lsrw _ => true
  | .rol _ => false
  | .rolw _ => true
  | .ror _ => false
  | .rorw _ => true
  | .emacs _ => false
  | .maxa _ => false
  | .maxm _ => false
  | .mina _ => false
  | .minm _ => false
  | .emaxd _ => false
  | .emaxm _ => false
  | .emind _ => false
  | .eminm _ => false
  | .tbl _ => false
  | .etbl _ => false
  | .bcc _ => false
  | .bcs _ => false
  | .beq _ => false
  | .bge _ => false
  | .bgt _ => false
  | .bhi _ => false
  | .bhs _ => false
  | .ble _ => false
  | .blo _ => false
  | .bls _ => false
  | .blt _ => false
  | .bmi _ => false
  | .bne _ => false
  | .bpl _ => false
  | .bra _ => false
  | .brn _ => false
  | .bvc _ => false
  | .bvs _ => false
  | .lbcc _ => false
  | .lbcs _ => false
  | .lbeq _ => false
  | .lbge _ => false
  | .lbgt _ => false
  | .lbhi _ => false
  | .lbhs _ => false
  | .lble _ => false
  | .lblo _ => false
  | .lbls _ => false
  | .lblt _ => false
  | .lbmi _ => false
  | .lbne _ => false
  | .lbpl _ => false
  | .lbra _ => false
  | .lbrn _ => false
  | .lbvc _ => false
  | .lbvs _ => false
  | .brclr _ _ _ => false
  | .brset _ _ _ => false
  | .dbeq _ _ => false
  | .dbne _ _ => false
  | .ibeq _ _ => false
  | .ibne _ _ => false
  | .tbeq _ _ => false
  | .tbne _ _ => false
  | .bsr _ => false
  | .jsr _ => false
  | .call _ => false
  | .jmp _ => false
  | .trap _ => false
  | .clra => false
  | .clrb => false
  | .clrx => true
  | .clry => true
  | .psha => false
  | .pshb => false
  | .pshc => false
  | .pshcw => true
  | .pshd => false
  | .pshx => false
  | .pshy => false
  | .pula => false
  | .pulb => false
  | .pulc => false
  | .pulcw => true
  | .puld => false
  | .pulx => false
  | .puly => false
  | .tap => false
  | .tpa => false
  | .tsx => false
  | .tsy => false
  | .txs => false
  | .tys => false
  | .xgdx => false
  | .xgdy => false
  | .tab => false
  | .tba => false
  | .aba => false
  | .abx => false
  | .aby => false
  | .sba => false
  | .daa => false
  | .inca => false
  | .incb => false
  | .incx => true
  | .incy => true
  | .inx => false
  | .iny => false
  | .ins => false
  | .deca => false
  | .decb => false
  | .decx => true
  | .decy => true
  | .dex => false
  | .dey => false
  | .des => false
  | .nega => false
  | .negb => false
  | .negx => true
  | .negy => true
  | .cba => false
  | .tsta => false
  | .tstb => false
  | .tstx => true
  | .tsty => true
  | .coma => false
  | .comb => false
  | .comx => true
  | .comy => true
  | .clc => false
  | .cli => false
  | .clv => false
  | .sec => false
  | .sei => false
  | .sev => false
  | .asla => false
  | .aslb => false
  | .asld => false
  | .aslx => true
  | .asly => true
  | .asra => false
  | .asrb => false
  | .asrx => true
  | .asry => true
  | .lsla => false
  | .lslb => false
  | .lsld => false
  | .lsra => false
  | .lsrb => false
  | .lsrd => false
  | .lsrx => true
  | .lsry => true
  | .rola => false
  | .rolb => false
  | .rolx => true
  | .roly => true
  | .rora => false
  | .rorb => false
  | .rorx => true
  | .rory => true
  | .mul => false
  | .emul => false
  | .emuls => false
  | .ediv => false
  | .edivs => false
  | .fdiv => false
  | .idiv => false
  | .idivs => false
  | .mem => false
  | .rev => false
  | .revw => false
  | .wav => false
  | .wavr => false
  | .rtc => false
  | .rts => false
  | .nop => false
  | .bgnd => false
  | .swi => false
  | .rti => false
  | .wai => false
  | .stop => false

/-- The mnemonics that are another name of words of another instruction (R171). The decoder never answers one. -/
def Instr.isAlias : Instr → Bool
  | .ldaa _ => false
  | .ldab _ => false
  | .ldd _ => false
  | .lds _ => false
  | .ldx _ => false
  | .ldy _ => false
  | .staa _ => false
  | .stab _ => false
  | .std _ => false
  | .sts _ => false
  | .stx _ => false
  | .sty _ => false
  | .gldaa _ => false
  | .gldab _ => false
  | .gldd _ => false
  | .glds _ => false
  | .gldx _ => false
  | .gldy _ => false
  | .gstaa _ => false
  | .gstab _ => false
  | .gstd _ => false
  | .gsts _ => false
  | .gstx _ => false
  | .gsty _ => false
  | .leas _ => false
  | .leax _ => false
  | .leay _ => false
  | .clr _ => false
  | .clrw _ => false
  | .movb _ _ => false
  | .movw _ _ => false
  | .tfr _ _ _ => false
  | .exg _ _ _ => false
  | .sex _ _ => true
  | .adca _ => false
  | .adcb _ => false
  | .adda _ => false
  | .addb _ => false
  | .addd _ => false
  | .addx _ => false
  | .addy _ => false
  | .aded _ => false
  | .adex _ => false
  | .adey _ => false
  | .sbca _ => false
  | .sbcb _ => false
  | .sbed _ => false
  | .sbex _ => false
  | .sbey _ => false
  | .suba _ => false
  | .subb _ => false
  | .subd _ => false
  | .subx _ => false
  | .suby _ => false
  | .inc _ => false
  | .incw _ => false
  | .dec _ => false
  | .decw _ => false
  | .neg _ => false
  | .negw _ => false
  | .cmpa _ => false
  | .cmpb _ => false
  | .cpd _ => false
  | .cps _ => false
  | .cpx _ => false
  | .cpy _ => false
  | .cped _ => false
  | .cpes _ => false
  | .cpex _ => false
  | .cpey _ => false
  | .tst _ => false
  | .tstw _ => false
  | .bita _ => false
  | .bitb _ => false
  | .bitx _ => false
  | .bity _ => false
  | .anda _ => false
  | .andb _ => false
  | .andx _ => false
  | .andy _ => false
  | .oraa _ => false
  | .orab _ => false
  | .orx _ => false
  | .ory _ => false
  | .eora _ => false
  | .eorb _ => false
  | .eorx _ => false
  | .eory _ => false
  | .com _ => false
  | .comw _ => false
  | .andcc _ => false
  | .orcc _ => false
  | .bclr _ _ => false
  | .bset _ _ => false
  | .btas _ _ => false
  | .asl _ => false
  | .aslw _ => false
  | .asr _ => false
  | .asrw _ => false
  | .lsl _ => true
  | .lsr _ => false
  | .lsrw _ => false
  | .rol _ => false
  | .rolw _ => false
  | .ror _ => false
  | .rorw _ => false
  | .emacs _ => false
  | .maxa _ => false
  | .maxm _ => false
  | .mina _ => false
  | .minm _ => false
  | .emaxd _ => false
  | .emaxm _ => false
  | .emind _ => false
  | .eminm _ => false
  | .tbl _ => false
  | .etbl _ => false
  | .bcc _ => false
  | .bcs _ => false
  | .beq _ => false
  | .bge _ => false
  | .bgt _ => false
  | .bhi _ => false
  | .bhs _ => true
  | .ble _ => false
  | .blo _ => true
  | .bls _ => false
  | .blt _ => false
  | .bmi _ => false
  | .bne _ => false
  | .bpl _ => false
  | .bra _ => false
  | .brn _ => false
  | .bvc _ => false
  | .bvs _ => false
  | .lbcc _ => false
  | .lbcs _ => false
  | .lbeq _ => false
  | .lbge _ => false
  | .lbgt _ => false
  | .lbhi _ => false
  | .lbhs _ => true
  | .lble _ => false
  | .lblo _ => true
  | .lbls _ => false
  | .lblt _ => false
  | .lbmi _ => false
  | .lbne _ => false
  | .lbpl _ => false
  | .lbra _ => false
  | .lbrn _ => false
  | .lbvc _ => false
  | .lbvs _ => false
  | .brclr _ _ _ => false
  | .brset _ _ _ => false
  | .dbeq _ _ => false
  | .dbne _ _ => false
  | .ibeq _ _ => false
  | .ibne _ _ => false
  | .tbeq _ _ => false
  | .tbne _ _ => false
  | .bsr _ => false
  | .jsr _ => false
  | .call _ => false
  | .jmp _ => false
  | .trap _ => false
  | .clra => false
  | .clrb => false
  | .clrx => false
  | .clry => false
  | .psha => false
  | .pshb => false
  | .pshc => false
  | .pshcw => false
  | .pshd => false
  | .pshx => false
  | .pshy => false
  | .pula => false
  | .pulb => false
  | .pulc => false
  | .pulcw => false
  | .puld => false
  | .pulx => false
  | .puly => false
  | .tap => true
  | .tpa => true
  | .tsx => true
  | .tsy => true
  | .txs => true
  | .tys => true
  | .xgdx => true
  | .xgdy => true
  | .tab => false
  | .tba => false
  | .aba => false
  | .abx => true
  | .aby => true
  | .sba => false
  | .daa => false
  | .inca => false
  | .incb => false
  | .incx => false
  | .incy => false
  | .inx => false
  | .iny => false
  | .ins => true
  | .deca => false
  | .decb => false
  | .decx => false
  | .decy => false
  | .dex => false
  | .dey => false
  | .des => true
  | .nega => false
  | .negb => false
  | .negx => false
  | .negy => false
  | .cba => false
  | .tsta => false
  | .tstb => false
  | .tstx => false
  | .tsty => false
  | .coma => false
  | .comb => false
  | .comx => false
  | .comy => false
  | .clc => true
  | .cli => true
  | .clv => true
  | .sec => true
  | .sei => true
  | .sev => true
  | .asla => false
  | .aslb => false
  | .asld => false
  | .aslx => false
  | .asly => false
  | .asra => false
  | .asrb => false
  | .asrx => false
  | .asry => false
  | .lsla => true
  | .lslb => true
  | .lsld => true
  | .lsra => false
  | .lsrb => false
  | .lsrd => false
  | .lsrx => false
  | .lsry => false
  | .rola => false
  | .rolb => false
  | .rolx => false
  | .roly => false
  | .rora => false
  | .rorb => false
  | .rorx => false
  | .rory => false
  | .mul => false
  | .emul => false
  | .emuls => false
  | .ediv => false
  | .edivs => false
  | .fdiv => false
  | .idiv => false
  | .idivs => false
  | .mem => false
  | .rev => false
  | .revw => false
  | .wav => false
  | .wavr => false
  | .rtc => false
  | .rts => false
  | .nop => false
  | .bgnd => false
  | .swi => false
  | .rti => false
  | .wai => false
  | .stop => false

/-- Whether the variant has the instruction with these operands. -/
def Instr.wellFormed (v : Variant) : Instr → Bool
  | .ldaa _ => true
  | .ldab _ => true
  | .ldd _ => true
  | .lds _ => true
  | .ldx _ => true
  | .ldy _ => true
  | .staa _ => true
  | .stab _ => true
  | .std _ => true
  | .sts _ => true
  | .stx _ => true
  | .sty _ => true
  | .gldaa _ => v.isHcs12x
  | .gldab _ => v.isHcs12x
  | .gldd _ => v.isHcs12x
  | .glds _ => v.isHcs12x
  | .gldx _ => v.isHcs12x
  | .gldy _ => v.isHcs12x
  | .gstaa _ => v.isHcs12x
  | .gstab _ => v.isHcs12x
  | .gstd _ => v.isHcs12x
  | .gsts _ => v.isHcs12x
  | .gstx _ => v.isHcs12x
  | .gsty _ => v.isHcs12x
  | .leas xb => !xb.isIndirect
  | .leax xb => !xb.isIndirect
  | .leay xb => !xb.isIndirect
  | .clr ea => ea.notDirect
  | .clrw ea => v.isHcs12x && ea.notDirect
  | .movb src dst => src.moveForm v && dst.moveForm v
  | .movw src dst => src.moveForm v && dst.moveForm v
  | .tfr _ _ alt => (!alt || v.isHcs12x)
  | .exg _ _ alt => (!alt || v.isHcs12x)
  | .sex _ _ => true
  | .adca _ => true
  | .adcb _ => true
  | .adda _ => true
  | .addb _ => true
  | .addd _ => true
  | .addx _ => v.isHcs12x
  | .addy _ => v.isHcs12x
  | .aded _ => v.isHcs12x
  | .adex _ => v.isHcs12x
  | .adey _ => v.isHcs12x
  | .sbca _ => true
  | .sbcb _ => true
  | .sbed _ => v.isHcs12x
  | .sbex _ => v.isHcs12x
  | .sbey _ => v.isHcs12x
  | .suba _ => true
  | .subb _ => true
  | .subd _ => true
  | .subx _ => v.isHcs12x
  | .suby _ => v.isHcs12x
  | .inc ea => ea.notDirect
  | .incw ea => v.isHcs12x && ea.notDirect
  | .dec ea => ea.notDirect
  | .decw ea => v.isHcs12x && ea.notDirect
  | .neg ea => ea.notDirect
  | .negw ea => v.isHcs12x && ea.notDirect
  | .cmpa _ => true
  | .cmpb _ => true
  | .cpd _ => true
  | .cps _ => true
  | .cpx _ => true
  | .cpy _ => true
  | .cped _ => v.isHcs12x
  | .cpes _ => v.isHcs12x
  | .cpex _ => v.isHcs12x
  | .cpey _ => v.isHcs12x
  | .tst ea => ea.notDirect
  | .tstw ea => v.isHcs12x && ea.notDirect
  | .bita _ => true
  | .bitb _ => true
  | .bitx _ => v.isHcs12x
  | .bity _ => v.isHcs12x
  | .anda _ => true
  | .andb _ => true
  | .andx _ => v.isHcs12x
  | .andy _ => v.isHcs12x
  | .oraa _ => true
  | .orab _ => true
  | .orx _ => v.isHcs12x
  | .ory _ => v.isHcs12x
  | .eora _ => true
  | .eorb _ => true
  | .eorx _ => v.isHcs12x
  | .eory _ => v.isHcs12x
  | .com ea => ea.notDirect
  | .comw ea => v.isHcs12x && ea.notDirect
  | .andcc _ => true
  | .orcc _ => true
  | .bclr ea _ => ea.notIndirect
  | .bset ea _ => ea.notIndirect
  | .btas ea _ => v.isHcs12x && ea.notIndirect
  | .asl ea => ea.notDirect
  | .aslw ea => v.isHcs12x && ea.notDirect
  | .asr ea => ea.notDirect
  | .asrw ea => v.isHcs12x && ea.notDirect
  | .lsl ea => ea.notDirect
  | .lsr ea => ea.notDirect
  | .lsrw ea => v.isHcs12x && ea.notDirect
  | .rol ea => ea.notDirect
  | .rolw ea => v.isHcs12x && ea.notDirect
  | .ror ea => ea.notDirect
  | .rorw ea => v.isHcs12x && ea.notDirect
  | .emacs _ => true
  | .maxa _ => true
  | .maxm _ => true
  | .mina _ => true
  | .minm _ => true
  | .emaxd _ => true
  | .emaxm _ => true
  | .emind _ => true
  | .eminm _ => true
  | .tbl xb => xb.isPlainIdx
  | .etbl xb => xb.isPlainIdx
  | .bcc _ => true
  | .bcs _ => true
  | .beq _ => true
  | .bge _ => true
  | .bgt _ => true
  | .bhi _ => true
  | .bhs _ => true
  | .ble _ => true
  | .blo _ => true
  | .bls _ => true
  | .blt _ => true
  | .bmi _ => true
  | .bne _ => true
  | .bpl _ => true
  | .bra _ => true
  | .brn _ => true
  | .bvc _ => true
  | .bvs _ => true
  | .lbcc _ => true
  | .lbcs _ => true
  | .lbeq _ => true
  | .lbge _ => true
  | .lbgt _ => true
  | .lbhi _ => true
  | .lbhs _ => true
  | .lble _ => true
  | .lblo _ => true
  | .lbls _ => true
  | .lblt _ => true
  | .lbmi _ => true
  | .lbne _ => true
  | .lbpl _ => true
  | .lbra _ => true
  | .lbrn _ => true
  | .lbvc _ => true
  | .lbvs _ => true
  | .brclr ea _ _ => ea.notIndirect
  | .brset ea _ _ => ea.notIndirect
  | .dbeq _ _ => true
  | .dbne _ _ => true
  | .ibeq _ _ => true
  | .ibne _ _ => true
  | .tbeq _ _ => true
  | .tbne _ _ => true
  | .bsr _ => true
  | .jsr _ => true
  | .call op => op.wellFormed
  | .jmp ea => ea.notDirect
  | .trap tn => v.trapNumber tn
  | .clra => true
  | .clrb => true
  | .clrx => v.isHcs12x
  | .clry => v.isHcs12x
  | .psha => true
  | .pshb => true
  | .pshc => true
  | .pshcw => v.isHcs12x
  | .pshd => true
  | .pshx => true
  | .pshy => true
  | .pula => true
  | .pulb => true
  | .pulc => true
  | .pulcw => v.isHcs12x
  | .puld => true
  | .pulx => true
  | .puly => true
  | .tap => true
  | .tpa => true
  | .tsx => true
  | .tsy => true
  | .txs => true
  | .tys => true
  | .xgdx => true
  | .xgdy => true
  | .tab => true
  | .tba => true
  | .aba => true
  | .abx => true
  | .aby => true
  | .sba => true
  | .daa => true
  | .inca => true
  | .incb => true
  | .incx => v.isHcs12x
  | .incy => v.isHcs12x
  | .inx => true
  | .iny => true
  | .ins => true
  | .deca => true
  | .decb => true
  | .decx => v.isHcs12x
  | .decy => v.isHcs12x
  | .dex => true
  | .dey => true
  | .des => true
  | .nega => true
  | .negb => true
  | .negx => v.isHcs12x
  | .negy => v.isHcs12x
  | .cba => true
  | .tsta => true
  | .tstb => true
  | .tstx => v.isHcs12x
  | .tsty => v.isHcs12x
  | .coma => true
  | .comb => true
  | .comx => v.isHcs12x
  | .comy => v.isHcs12x
  | .clc => true
  | .cli => true
  | .clv => true
  | .sec => true
  | .sei => true
  | .sev => true
  | .asla => true
  | .aslb => true
  | .asld => true
  | .aslx => v.isHcs12x
  | .asly => v.isHcs12x
  | .asra => true
  | .asrb => true
  | .asrx => v.isHcs12x
  | .asry => v.isHcs12x
  | .lsla => true
  | .lslb => true
  | .lsld => true
  | .lsra => true
  | .lsrb => true
  | .lsrd => true
  | .lsrx => v.isHcs12x
  | .lsry => v.isHcs12x
  | .rola => true
  | .rolb => true
  | .rolx => v.isHcs12x
  | .roly => v.isHcs12x
  | .rora => true
  | .rorb => true
  | .rorx => v.isHcs12x
  | .rory => v.isHcs12x
  | .mul => true
  | .emul => true
  | .emuls => true
  | .ediv => true
  | .edivs => true
  | .fdiv => true
  | .idiv => true
  | .idivs => true
  | .mem => true
  | .rev => true
  | .revw => true
  | .wav => true
  | .wavr => true
  | .rtc => true
  | .rts => true
  | .nop => true
  | .bgnd => true
  | .swi => true
  | .rti => true
  | .wai => true
  | .stop => true

end Sys2Proof
end

