-- ==== Sys2Proof/Decode.lean ====
section
/-! DEFINITION. The decoder, total on any bytes, and after it the encoder (R120 to R146, R160 to R164). The two opcode
pages are tables of one reader per opcode, sixteen opcodes a column, as the opcode maps of the spec print them. -/

namespace Sys2Proof

/-- Why a byte sequence stands for no instruction. Each is an encoding that the spec leaves without a meaning and
refuses (R164); none of them traps. -/
inductive DecodeError where
  /-- Fewer bytes were given than the instruction has. -/
  | truncated
  /-- A loop postbyte outside Table A-6 (R141, U5). -/
  | undefinedLoopPostbyte
  /-- A transfer/exchange postbyte with bit 3 set, on HCS12 (R142, U7). -/
  | undefinedTransferPostbyte
  /-- An index postbyte of a kind for which the instruction has no row (R139, U8). -/
  | indexFormNotAccepted
  /-- A move on HCS12 with an index postbyte that is not plain (R139, U6). -/
  | moveFormNotOnHcs12
  deriving DecidableEq, Repr

/-- Consumes object-code bytes from the front of a list. -/
abbrev Reader (α : Type) := List Byte → Except DecodeError (α × List Byte)

/-- Consumes nothing. -/
def Reader.done {α : Type} (x : α) : Reader α := fun bs => .ok (x, bs)

/-- Refuses. -/
def Reader.fail {α : Type} (e : DecodeError) : Reader α := fun _ => .error e

/-- One reader after the other, left to right (R120). -/
def Reader.andThen {α β : Type} (r : Reader α) (k : α → Reader β) : Reader β := fun bs =>
  match r bs with
  | .ok (x, rest) => k x rest
  | .error e => .error e

/-- One operand byte. -/
def readByte : Reader Byte
  | [] => .error .truncated
  | b :: rest => .ok (b, rest)

/-- Two operand bytes, high-order byte first (R81, R120). -/
def readWord : Reader Word :=
  readByte.andThen fun hi => readByte.andThen fun lo => .done (wordOf hi lo)

/-- The base register code of an index postbyte (R130). -/
def IdxBase.ofCode (c : BitVec 2) : IdxBase :=
  if c = 0#2 then .x else if c = 1#2 then .y else if c = 2#2 then .sp else .pc

/-- The base register code of an auto-modifying postbyte, where 11 does not occur (R130 case b). -/
def IdxReg.ofCode (c : BitVec 2) : IdxReg :=
  if c = 0#2 then .x else if c = 1#2 then .y else .sp

/-- Decoding of the index postbyte with its extension bytes, cases (a), (b) and (c) of R130. -/
def readXb : Reader Xb :=
  readByte.andThen fun b =>
    if b.getLsbD 5 = false then
      .done (.const5 (.ofCode (b.extractLsb' 6 2)) (b.extractLsb' 0 5))
    else if b.extractLsb' 5 3 ≠ 7#3 then
      .done (.auto (.ofCode (b.extractLsb' 6 2)) (b.getLsbD 4) (b.extractLsb' 0 4))
    else
      let base := IdxBase.ofCode (b.extractLsb' 3 2)
      match (b.extractLsb' 0 3).toNat with
      | 0 => readByte.andThen fun ff => .done (.const9 base (0#1 ++ ff))
      | 1 => readByte.andThen fun ff => .done (.const9 base (1#1 ++ ff))
      | 2 => readWord.andThen fun n => .done (.const16 base n)
      | 3 => readWord.andThen fun n => .done (.indirect16 base n)
      | 4 => .done (.acc .a base)
      | 5 => .done (.acc .b base)
      | 6 => .done (.acc .d base)
      | _ => .done (.indirectD base)

/-- An index postbyte of a kind the instruction has a row for (R139, U8). -/
def readXbOf (accepts : Xb → Bool) (e : DecodeError) : Reader Xb :=
  readXb.andThen fun xb => if accepts xb then .done xb else .fail e

/-- Direct operand (R125). -/
def readDir : Reader Ea := readByte.andThen fun dd => .done (.dir dd)

/-- Extended operand (R126). -/
def readExt : Reader Ea := readWord.andThen fun hhll => .done (.ext hhll)

/-- First row of the table of R139: every postbyte. -/
def allForms (_ : Xb) : Bool := true

/-- Second row of the table of R139: no indirection. -/
def directForms (xb : Xb) : Bool := !xb.isIndirect

/-- Third row of the table of R139: no extension and no indirection. -/
def plainForms (xb : Xb) : Bool := xb.isPlainIdx

/-- Indexed operand of the bit instructions (R139). -/
def readIdxDirect : Reader Ea := (readXbOf directForms .indexFormNotAccepted).andThen fun xb => .done (.idx xb)

/-- Indexed operand of a move: on HCS12 a plain postbyte only (R139, U6). -/
def readMoveXb (v : Variant) : Reader Ea :=
  (readXbOf (fun xb => v.isHcs12x || xb.isPlainIdx) .moveFormNotOnHcs12).andThen fun xb => .done (.idx xb)

/-! The operand layouts of R122. -/

/-- P1_INH, P2_INH, P2_TRAP. -/
def inh (i : Instr) : Reader Instr := .done i

/-- P1_IMM8, P1_REL8. -/
def imm8 (f : Byte → Instr) : Reader Instr := readByte.andThen fun b => .done (f b)

/-- P1_IMM16, P2_IMM16, P2_REL16, and the address of EMACS. -/
def imm16 (f : Word → Instr) : Reader Instr := readWord.andThen fun w => .done (f w)

/-- P1_DIR, P2_DIR. -/
def dir (f : Ea → Instr) : Reader Instr := readDir.andThen fun ea => .done (f ea)

/-- P1_EXT, P2_EXT. -/
def ext (f : Ea → Instr) : Reader Instr := readExt.andThen fun ea => .done (f ea)

/-- P1_XB, P2_XB, P2_XB_NOEXT. -/
def idx (accepts : Xb → Bool) (f : Xb → Instr) : Reader Instr :=
  (readXbOf accepts .indexFormNotAccepted).andThen fun xb => .done (f xb)

/-- P1_DIR_MM, P1_EXT_MM, P1_XB_MM and their page-2 forms. -/
def mask (operand : Reader Ea) (f : Ea → Byte → Instr) : Reader Instr :=
  operand.andThen fun ea => readByte.andThen fun mm => .done (f ea mm)

/-- P1_DIR_MM_REL8, P1_EXT_MM_REL8, P1_XB_MM_REL8. -/
def maskRel (operand : Reader Ea) (f : Ea → Byte → Byte → Instr) : Reader Instr :=
  operand.andThen fun ea => readByte.andThen fun mm => readByte.andThen fun rr => .done (f ea mm rr)

/-- P1_EXT_PG (R144). -/
def callExt : Reader Instr :=
  readExt.andThen fun ea => readByte.andThen fun pg => .done (.call (.direct ea pg))

/-- P1_XB_PG: the indirect forms carry no page byte (R144). -/
def callIdx : Reader Instr :=
  readXb.andThen fun xb =>
    if xb.isIndirect then .done (.call (.indirect xb))
    else readByte.andThen fun pg => .done (.call (.direct (.idx xb) pg))

/-- P2_MOV_IMM_EXT: the immediate, then the destination address (R262). -/
def moveImmExt {α : Type} (imm : Reader α) (f : α → Ea → Instr) : Reader Instr :=
  imm.andThen fun u => readExt.andThen fun dst => .done (f u dst)

/-- P2_MOV_IMM_XB: the destination postbyte, then the immediate (R262). -/
def moveImmIdx {α : Type} (v : Variant) (imm : Reader α) (f : α → Ea → Instr) : Reader Instr :=
  (readMoveXb v).andThen fun dst => imm.andThen fun u => .done (f u dst)

/-- P2_MOV_EXT_EXT: source, then destination (R262). -/
def moveExtExt (f : Ea → Ea → Instr) : Reader Instr :=
  readExt.andThen fun src => readExt.andThen fun dst => .done (f src dst)

/-- P2_MOV_EXT_XB: the DESTINATION postbyte, then the source address (R262). -/
def moveExtIdx (v : Variant) (f : Ea → Ea → Instr) : Reader Instr :=
  (readMoveXb v).andThen fun dst => readExt.andThen fun src => .done (f src dst)

/-- P2_MOV_XB_EXT: source, then destination (R262). -/
def moveIdxExt (v : Variant) (f : Ea → Ea → Instr) : Reader Instr :=
  (readMoveXb v).andThen fun src => readExt.andThen fun dst => .done (f src dst)

/-- P2_MOV_XB_XB: source, then destination (R262). -/
def moveIdxIdx (v : Variant) (f : Ea → Ea → Instr) : Reader Instr :=
  (readMoveXb v).andThen fun src => (readMoveXb v).andThen fun dst => .done (f src dst)

/-- The counter register code of a loop postbyte; codes 010 and 011 have no register (R141). -/
def LoopReg.ofCode (c : BitVec 3) : Option LoopReg :=
  if c = 0#3 then some .a
  else if c = 1#3 then some .b
  else if c = 4#3 then some .d
  else if c = 5#3 then some .x
  else if c = 6#3 then some .y
  else if c = 7#3 then some .sp
  else none

/-- The loop primitive that `lb[7:5]` selects (R141). -/
def loopOf (c : BitVec 3) (r : LoopReg) (off : BitVec 9) : Option Instr :=
  if c = 0#3 then some (.dbeq r off)
  else if c = 1#3 then some (.dbne r off)
  else if c = 2#3 then some (.tbeq r off)
  else if c = 3#3 then some (.tbne r off)
  else if c = 4#3 then some (.ibeq r off)
  else if c = 5#3 then some (.ibne r off)
  else none

/-- P1_LB_REL9: the postbyte `lb`, then the low byte of the offset, whose bit 8 is `lb[4]` (R129, R141). -/
def loop : Reader Instr :=
  readByte.andThen fun lb => readByte.andThen fun rr =>
    match (if lb.getLsbD 3 then none else LoopReg.ofCode (lb.extractLsb' 0 3)) with
    | none => .fail .undefinedLoopPostbyte
    | some r =>
      match loopOf (lb.extractLsb' 5 3) r (lb.extractLsb' 4 1 ++ rr) with
      | none => .fail .undefinedLoopPostbyte
      | some i => .done i

/-- The register codes of the transfer/exchange postbyte (R270). -/
def XferReg.ofCode (c : BitVec 3) : XferReg :=
  if c = 0#3 then .a
  else if c = 1#3 then .b
  else if c = 2#3 then .ccr
  else if c = 3#3 then .tmp
  else if c = 4#3 then .d
  else if c = 5#3 then .x
  else if c = 6#3 then .y
  else .sp

/-- P1_EB: `eb[7]` selects transfer or exchange; bit 3 set is undefined on HCS12 (R142, R270, U7). -/
def transfer (v : Variant) : Reader Instr :=
  readByte.andThen fun eb =>
    let r1 := XferReg.ofCode (eb.extractLsb' 4 3)
    let r2 := XferReg.ofCode (eb.extractLsb' 0 3)
    let alt := eb.getLsbD 3
    if alt && !v.isHcs12x then .fail .undefinedTransferPostbyte
    else if eb.getLsbD 7 then .done (.exg r1 r2 alt)
    else .done (.tfr r1 r2 alt)

/-! The page-2 opcode map of HCS12X (R162). -/

/-- Opcodes $00 to $0F of page 2 (R162). -/
def page2Col0 (v : Variant) : List (Reader Instr) :=
  [moveImmIdx v readWord fun u => .movw (.imm u),
   moveExtIdx v fun ea => .movw (.mem ea),
   moveIdxIdx v fun ea => .movw (.mem ea),
   moveImmExt readWord fun v => .movw (.imm v),
   moveExtExt fun ea => .movw (.mem ea),
   moveIdxExt v fun ea => .movw (.mem ea),
   inh .aba,
   inh .daa,
   moveImmIdx v readByte fun u => .movb (.imm u),
   moveExtIdx v fun ea => .movb (.mem ea),
   moveIdxIdx v fun ea => .movb (.mem ea),
   moveImmExt readByte fun v => .movb (.imm v),
   moveExtExt fun ea => .movb (.mem ea),
   moveIdxExt v fun ea => .movb (.mem ea),
   inh .tab,
   inh .tba]

/-- Opcodes $10 to $1F of page 2 (R162). -/
def page2Col1 (_v : Variant) : List (Reader Instr) :=
  [inh .idiv,
   inh .fdiv,
   imm16 .emacs,
   inh .emuls,
   inh .edivs,
   inh .idivs,
   inh .sba,
   inh .cba,
   idx allForms .maxa,
   idx allForms .mina,
   idx allForms .emaxd,
   idx allForms .emind,
   idx allForms .maxm,
   idx allForms .minm,
   idx allForms .emaxm,
   idx allForms .eminm]

/-- Opcodes $20 to $2F of page 2 (R162). -/
def page2Col2 (_v : Variant) : List (Reader Instr) :=
  [imm16 .lbra,
   imm16 .lbrn,
   imm16 .lbhi,
   imm16 .lbls,
   imm16 .lbcc,
   imm16 .lbcs,
   imm16 .lbne,
   imm16 .lbeq,
   imm16 .lbvc,
   imm16 .lbvs,
   imm16 .lbpl,
   imm16 .lbmi,
   imm16 .lbge,
   imm16 .lblt,
   imm16 .lbgt,
   imm16 .lble]

/-- Opcodes $30 to $3F of page 2 (R162). -/
def page2Col3 (_v : Variant) : List (Reader Instr) :=
  [inh (.trap 0x30#8),
   inh (.trap 0x31#8),
   inh (.trap 0x32#8),
   inh (.trap 0x33#8),
   inh (.trap 0x34#8),
   mask readDir .btas,
   mask readExt .btas,
   mask readIdxDirect .btas,
   inh .pulcw,
   inh .pshcw,
   inh .rev,
   inh .revw,
   inh .wav,
   idx plainForms .tbl,
   inh .stop,
   idx plainForms .etbl]

/-- Opcodes $40 to $4F of page 2 (R162). -/
def page2Col4 (_v : Variant) : List (Reader Instr) :=
  [inh .negx,
   inh .comx,
   inh .incx,
   inh .decx,
   inh .lsrx,
   inh .rolx,
   inh .rorx,
   inh .asrx,
   inh .aslx,
   inh (.trap 0x49#8),
   inh (.trap 0x4A#8),
   inh (.trap 0x4B#8),
   inh (.trap 0x4C#8),
   inh (.trap 0x4D#8),
   inh (.trap 0x4E#8),
   inh (.trap 0x4F#8)]

/-- Opcodes $50 to $5F of page 2 (R162). -/
def page2Col5 (_v : Variant) : List (Reader Instr) :=
  [inh .negy,
   inh .comy,
   inh .incy,
   inh .decy,
   inh .lsry,
   inh .roly,
   inh .rory,
   inh .asry,
   inh .asly,
   inh (.trap 0x59#8),
   dir .gstaa,
   dir .gstab,
   dir .gstd,
   dir .gsty,
   dir .gstx,
   dir .gsts]

/-- Opcodes $60 to $6F of page 2 (R162). -/
def page2Col6 (_v : Variant) : List (Reader Instr) :=
  [idx allForms fun xb => .negw (.idx xb),
   idx allForms fun xb => .comw (.idx xb),
   idx allForms fun xb => .incw (.idx xb),
   idx allForms fun xb => .decw (.idx xb),
   idx allForms fun xb => .lsrw (.idx xb),
   idx allForms fun xb => .rolw (.idx xb),
   idx allForms fun xb => .rorw (.idx xb),
   idx allForms fun xb => .asrw (.idx xb),
   idx allForms fun xb => .aslw (.idx xb),
   idx allForms fun xb => .clrw (.idx xb),
   idx allForms fun xb => .gstaa (.idx xb),
   idx allForms fun xb => .gstab (.idx xb),
   idx allForms fun xb => .gstd (.idx xb),
   idx allForms fun xb => .gsty (.idx xb),
   idx allForms fun xb => .gstx (.idx xb),
   idx allForms fun xb => .gsts (.idx xb)]

/-- Opcodes $70 to $7F of page 2 (R162). -/
def page2Col7 (_v : Variant) : List (Reader Instr) :=
  [ext .negw,
   ext .comw,
   ext .incw,
   ext .decw,
   ext .lsrw,
   ext .rolw,
   ext .rorw,
   ext .asrw,
   ext .aslw,
   ext .clrw,
   ext .gstaa,
   ext .gstab,
   ext .gstd,
   ext .gsty,
   ext .gstx,
   ext .gsts]

/-- Opcodes $80 to $8F of page 2 (R162). -/
def page2Col8 (_v : Variant) : List (Reader Instr) :=
  [imm16 fun jjkk => .subx (.imm jjkk),
   inh (.trap 0x81#8),
   imm16 fun jjkk => .sbex (.imm jjkk),
   imm16 fun jjkk => .sbed (.imm jjkk),
   imm16 fun jjkk => .andx (.imm jjkk),
   imm16 fun jjkk => .bitx (.imm jjkk),
   inh (.trap 0x86#8),
   inh .clrx,
   imm16 fun jjkk => .eorx (.imm jjkk),
   imm16 fun jjkk => .adex (.imm jjkk),
   imm16 fun jjkk => .orx (.imm jjkk),
   imm16 fun jjkk => .addx (.imm jjkk),
   imm16 fun jjkk => .cped (.imm jjkk),
   imm16 fun jjkk => .cpey (.imm jjkk),
   imm16 fun jjkk => .cpex (.imm jjkk),
   imm16 fun jjkk => .cpes (.imm jjkk)]

/-- Opcodes $90 to $9F of page 2 (R162). -/
def page2Col9 (_v : Variant) : List (Reader Instr) :=
  [dir fun ea => .subx (.mem ea),
   inh (.trap 0x91#8),
   dir fun ea => .sbex (.mem ea),
   dir fun ea => .sbed (.mem ea),
   dir fun ea => .andx (.mem ea),
   dir fun ea => .bitx (.mem ea),
   dir .gldaa,
   inh .tstx,
   dir fun ea => .eorx (.mem ea),
   dir fun ea => .adex (.mem ea),
   dir fun ea => .orx (.mem ea),
   dir fun ea => .addx (.mem ea),
   dir fun ea => .cped (.mem ea),
   dir fun ea => .cpey (.mem ea),
   dir fun ea => .cpex (.mem ea),
   dir fun ea => .cpes (.mem ea)]

/-- Opcodes $A0 to $AF of page 2 (R162). -/
def page2ColA (_v : Variant) : List (Reader Instr) :=
  [idx allForms fun xb => .subx (.mem (.idx xb)),
   inh (.trap 0xA1#8),
   idx allForms fun xb => .sbex (.mem (.idx xb)),
   idx allForms fun xb => .sbed (.mem (.idx xb)),
   idx allForms fun xb => .andx (.mem (.idx xb)),
   idx allForms fun xb => .bitx (.mem (.idx xb)),
   idx allForms fun xb => .gldaa (.idx xb),
   inh (.trap 0xA7#8),
   idx allForms fun xb => .eorx (.mem (.idx xb)),
   idx allForms fun xb => .adex (.mem (.idx xb)),
   idx allForms fun xb => .orx (.mem (.idx xb)),
   idx allForms fun xb => .addx (.mem (.idx xb)),
   idx allForms fun xb => .cped (.mem (.idx xb)),
   idx allForms fun xb => .cpey (.mem (.idx xb)),
   idx allForms fun xb => .cpex (.mem (.idx xb)),
   idx allForms fun xb => .cpes (.mem (.idx xb))]

/-- Opcodes $B0 to $BF of page 2 (R162). -/
def page2ColB (_v : Variant) : List (Reader Instr) :=
  [ext fun ea => .subx (.mem ea),
   inh (.trap 0xB1#8),
   ext fun ea => .sbex (.mem ea),
   ext fun ea => .sbed (.mem ea),
   ext fun ea => .andx (.mem ea),
   ext fun ea => .bitx (.mem ea),
   ext .gldaa,
   inh (.trap 0xB7#8),
   ext fun ea => .eorx (.mem ea),
   ext fun ea => .adex (.mem ea),
   ext fun ea => .orx (.mem ea),
   ext fun ea => .addx (.mem ea),
   ext fun ea => .cped (.mem ea),
   ext fun ea => .cpey (.mem ea),
   ext fun ea => .cpex (.mem ea),
   ext fun ea => .cpes (.mem ea)]

/-- Opcodes $C0 to $CF of page 2 (R162). -/
def page2ColC (_v : Variant) : List (Reader Instr) :=
  [imm16 fun jjkk => .suby (.imm jjkk),
   inh (.trap 0xC1#8),
   imm16 fun jjkk => .sbey (.imm jjkk),
   imm16 fun jjkk => .aded (.imm jjkk),
   imm16 fun jjkk => .andy (.imm jjkk),
   imm16 fun jjkk => .bity (.imm jjkk),
   inh (.trap 0xC6#8),
   inh .clry,
   imm16 fun jjkk => .eory (.imm jjkk),
   imm16 fun jjkk => .adey (.imm jjkk),
   imm16 fun jjkk => .ory (.imm jjkk),
   imm16 fun jjkk => .addy (.imm jjkk),
   inh (.trap 0xCC#8),
   inh (.trap 0xCD#8),
   inh (.trap 0xCE#8),
   inh (.trap 0xCF#8)]

/-- Opcodes $D0 to $DF of page 2 (R162). -/
def page2ColD (_v : Variant) : List (Reader Instr) :=
  [dir fun ea => .suby (.mem ea),
   inh (.trap 0xD1#8),
   dir fun ea => .sbey (.mem ea),
   dir fun ea => .aded (.mem ea),
   dir fun ea => .andy (.mem ea),
   dir fun ea => .bity (.mem ea),
   dir .gldab,
   inh .tsty,
   dir fun ea => .eory (.mem ea),
   dir fun ea => .adey (.mem ea),
   dir fun ea => .ory (.mem ea),
   dir fun ea => .addy (.mem ea),
   dir .gldd,
   dir .gldy,
   dir .gldx,
   dir .glds]

/-- Opcodes $E0 to $EF of page 2 (R162). -/
def page2ColE (_v : Variant) : List (Reader Instr) :=
  [idx allForms fun xb => .suby (.mem (.idx xb)),
   inh (.trap 0xE1#8),
   idx allForms fun xb => .sbey (.mem (.idx xb)),
   idx allForms fun xb => .aded (.mem (.idx xb)),
   idx allForms fun xb => .andy (.mem (.idx xb)),
   idx allForms fun xb => .bity (.mem (.idx xb)),
   idx allForms fun xb => .gldab (.idx xb),
   idx allForms fun xb => .tstw (.idx xb),
   idx allForms fun xb => .eory (.mem (.idx xb)),
   idx allForms fun xb => .adey (.mem (.idx xb)),
   idx allForms fun xb => .ory (.mem (.idx xb)),
   idx allForms fun xb => .addy (.mem (.idx xb)),
   idx allForms fun xb => .gldd (.idx xb),
   idx allForms fun xb => .gldy (.idx xb),
   idx allForms fun xb => .gldx (.idx xb),
   idx allForms fun xb => .glds (.idx xb)]

/-- Opcodes $F0 to $FF of page 2 (R162). -/
def page2ColF (_v : Variant) : List (Reader Instr) :=
  [ext fun ea => .suby (.mem ea),
   inh (.trap 0xF1#8),
   ext fun ea => .sbey (.mem ea),
   ext fun ea => .aded (.mem ea),
   ext fun ea => .andy (.mem ea),
   ext fun ea => .bity (.mem ea),
   ext .gldab,
   ext .tstw,
   ext fun ea => .eory (.mem ea),
   ext fun ea => .adey (.mem ea),
   ext fun ea => .ory (.mem ea),
   ext fun ea => .addy (.mem ea),
   ext .gldd,
   ext .gldy,
   ext .gldx,
   ext .glds]

/-- The cell of an opcode map: column the high nibble, row the low nibble. -/
def mapCell (map : List (List (Reader Instr))) (op : Byte) : Reader Instr :=
  (map.getD (op.toNat / 16) []).getD (op.toNat % 16) (.fail .truncated)

/-- Page 2. HCS12 has the instructions of $00–$2F and $3A–$3F and TRAP in every other cell (R161, R162). -/
def page2 (v : Variant) (op : Byte) : Reader Instr :=
  if !v.isHcs12x && v.trapNumber op then inh (.trap op)
  else mapCell [page2Col0 v, page2Col1 v, page2Col2 v, page2Col3 v, page2Col4 v, page2Col5 v, page2Col6 v, page2Col7 v, page2Col8 v, page2Col9 v, page2ColA v, page2ColB v, page2ColC v, page2ColD v, page2ColE v, page2ColF v] op

/-! The page-1 opcode map, the same on both variants (R160). -/

/-- Opcodes $00 to $0F of page 1 (R160). -/
def page1Col0 (_v : Variant) : List (Reader Instr) :=
  [inh .bgnd,
   inh .mem,
   inh .iny,
   inh .dey,
   loop,
   idx allForms fun xb => .jmp (.idx xb),
   ext .jmp,
   imm8 .bsr,
   inh .inx,
   inh .dex,
   inh .rtc,
   inh .rti,
   mask readIdxDirect .bset,
   mask readIdxDirect .bclr,
   maskRel readIdxDirect .brset,
   maskRel readIdxDirect .brclr]

/-- Opcodes $10 to $1F of page 1 (R160). -/
def page1Col1 (v : Variant) : List (Reader Instr) :=
  [imm8 .andcc,
   inh .ediv,
   inh .mul,
   inh .emul,
   imm8 .orcc,
   idx allForms fun xb => .jsr (.idx xb),
   ext .jsr,
   dir .jsr,
   readByte.andThen (page2 v),
   idx directForms .leay,
   idx directForms .leax,
   idx directForms .leas,
   mask readExt .bset,
   mask readExt .bclr,
   maskRel readExt .brset,
   maskRel readExt .brclr]

/-- Opcodes $20 to $2F of page 1 (R160). -/
def page1Col2 (_v : Variant) : List (Reader Instr) :=
  [imm8 .bra,
   imm8 .brn,
   imm8 .bhi,
   imm8 .bls,
   imm8 .bcc,
   imm8 .bcs,
   imm8 .bne,
   imm8 .beq,
   imm8 .bvc,
   imm8 .bvs,
   imm8 .bpl,
   imm8 .bmi,
   imm8 .bge,
   imm8 .blt,
   imm8 .bgt,
   imm8 .ble]

/-- Opcodes $30 to $3F of page 1 (R160). -/
def page1Col3 (_v : Variant) : List (Reader Instr) :=
  [inh .pulx,
   inh .puly,
   inh .pula,
   inh .pulb,
   inh .pshx,
   inh .pshy,
   inh .psha,
   inh .pshb,
   inh .pulc,
   inh .pshc,
   inh .puld,
   inh .pshd,
   inh .wavr,
   inh .rts,
   inh .wai,
   inh .swi]

/-- Opcodes $40 to $4F of page 1 (R160). -/
def page1Col4 (_v : Variant) : List (Reader Instr) :=
  [inh .nega,
   inh .coma,
   inh .inca,
   inh .deca,
   inh .lsra,
   inh .rola,
   inh .rora,
   inh .asra,
   inh .asla,
   inh .lsrd,
   callExt,
   callIdx,
   mask readDir .bset,
   mask readDir .bclr,
   maskRel readDir .brset,
   maskRel readDir .brclr]

/-- Opcodes $50 to $5F of page 1 (R160). -/
def page1Col5 (_v : Variant) : List (Reader Instr) :=
  [inh .negb,
   inh .comb,
   inh .incb,
   inh .decb,
   inh .lsrb,
   inh .rolb,
   inh .rorb,
   inh .asrb,
   inh .aslb,
   inh .asld,
   dir .staa,
   dir .stab,
   dir .std,
   dir .sty,
   dir .stx,
   dir .sts]

/-- Opcodes $60 to $6F of page 1 (R160). -/
def page1Col6 (_v : Variant) : List (Reader Instr) :=
  [idx allForms fun xb => .neg (.idx xb),
   idx allForms fun xb => .com (.idx xb),
   idx allForms fun xb => .inc (.idx xb),
   idx allForms fun xb => .dec (.idx xb),
   idx allForms fun xb => .lsr (.idx xb),
   idx allForms fun xb => .rol (.idx xb),
   idx allForms fun xb => .ror (.idx xb),
   idx allForms fun xb => .asr (.idx xb),
   idx allForms fun xb => .asl (.idx xb),
   idx allForms fun xb => .clr (.idx xb),
   idx allForms fun xb => .staa (.idx xb),
   idx allForms fun xb => .stab (.idx xb),
   idx allForms fun xb => .std (.idx xb),
   idx allForms fun xb => .sty (.idx xb),
   idx allForms fun xb => .stx (.idx xb),
   idx allForms fun xb => .sts (.idx xb)]

/-- Opcodes $70 to $7F of page 1 (R160). -/
def page1Col7 (_v : Variant) : List (Reader Instr) :=
  [ext .neg,
   ext .com,
   ext .inc,
   ext .dec,
   ext .lsr,
   ext .rol,
   ext .ror,
   ext .asr,
   ext .asl,
   ext .clr,
   ext .staa,
   ext .stab,
   ext .std,
   ext .sty,
   ext .stx,
   ext .sts]

/-- Opcodes $80 to $8F of page 1 (R160). -/
def page1Col8 (_v : Variant) : List (Reader Instr) :=
  [imm8 fun ii => .suba (.imm ii),
   imm8 fun ii => .cmpa (.imm ii),
   imm8 fun ii => .sbca (.imm ii),
   imm16 fun jjkk => .subd (.imm jjkk),
   imm8 fun ii => .anda (.imm ii),
   imm8 fun ii => .bita (.imm ii),
   imm8 fun ii => .ldaa (.imm ii),
   inh .clra,
   imm8 fun ii => .eora (.imm ii),
   imm8 fun ii => .adca (.imm ii),
   imm8 fun ii => .oraa (.imm ii),
   imm8 fun ii => .adda (.imm ii),
   imm16 fun jjkk => .cpd (.imm jjkk),
   imm16 fun jjkk => .cpy (.imm jjkk),
   imm16 fun jjkk => .cpx (.imm jjkk),
   imm16 fun jjkk => .cps (.imm jjkk)]

/-- Opcodes $90 to $9F of page 1 (R160). -/
def page1Col9 (_v : Variant) : List (Reader Instr) :=
  [dir fun ea => .suba (.mem ea),
   dir fun ea => .cmpa (.mem ea),
   dir fun ea => .sbca (.mem ea),
   dir fun ea => .subd (.mem ea),
   dir fun ea => .anda (.mem ea),
   dir fun ea => .bita (.mem ea),
   dir fun ea => .ldaa (.mem ea),
   inh .tsta,
   dir fun ea => .eora (.mem ea),
   dir fun ea => .adca (.mem ea),
   dir fun ea => .oraa (.mem ea),
   dir fun ea => .adda (.mem ea),
   dir fun ea => .cpd (.mem ea),
   dir fun ea => .cpy (.mem ea),
   dir fun ea => .cpx (.mem ea),
   dir fun ea => .cps (.mem ea)]

/-- Opcodes $A0 to $AF of page 1 (R160). -/
def page1ColA (_v : Variant) : List (Reader Instr) :=
  [idx allForms fun xb => .suba (.mem (.idx xb)),
   idx allForms fun xb => .cmpa (.mem (.idx xb)),
   idx allForms fun xb => .sbca (.mem (.idx xb)),
   idx allForms fun xb => .subd (.mem (.idx xb)),
   idx allForms fun xb => .anda (.mem (.idx xb)),
   idx allForms fun xb => .bita (.mem (.idx xb)),
   idx allForms fun xb => .ldaa (.mem (.idx xb)),
   inh .nop,
   idx allForms fun xb => .eora (.mem (.idx xb)),
   idx allForms fun xb => .adca (.mem (.idx xb)),
   idx allForms fun xb => .oraa (.mem (.idx xb)),
   idx allForms fun xb => .adda (.mem (.idx xb)),
   idx allForms fun xb => .cpd (.mem (.idx xb)),
   idx allForms fun xb => .cpy (.mem (.idx xb)),
   idx allForms fun xb => .cpx (.mem (.idx xb)),
   idx allForms fun xb => .cps (.mem (.idx xb))]

/-- Opcodes $B0 to $BF of page 1 (R160). -/
def page1ColB (v : Variant) : List (Reader Instr) :=
  [ext fun ea => .suba (.mem ea),
   ext fun ea => .cmpa (.mem ea),
   ext fun ea => .sbca (.mem ea),
   ext fun ea => .subd (.mem ea),
   ext fun ea => .anda (.mem ea),
   ext fun ea => .bita (.mem ea),
   ext fun ea => .ldaa (.mem ea),
   transfer v,
   ext fun ea => .eora (.mem ea),
   ext fun ea => .adca (.mem ea),
   ext fun ea => .oraa (.mem ea),
   ext fun ea => .adda (.mem ea),
   ext fun ea => .cpd (.mem ea),
   ext fun ea => .cpy (.mem ea),
   ext fun ea => .cpx (.mem ea),
   ext fun ea => .cps (.mem ea)]

/-- Opcodes $C0 to $CF of page 1 (R160). -/
def page1ColC (_v : Variant) : List (Reader Instr) :=
  [imm8 fun ii => .subb (.imm ii),
   imm8 fun ii => .cmpb (.imm ii),
   imm8 fun ii => .sbcb (.imm ii),
   imm16 fun jjkk => .addd (.imm jjkk),
   imm8 fun ii => .andb (.imm ii),
   imm8 fun ii => .bitb (.imm ii),
   imm8 fun ii => .ldab (.imm ii),
   inh .clrb,
   imm8 fun ii => .eorb (.imm ii),
   imm8 fun ii => .adcb (.imm ii),
   imm8 fun ii => .orab (.imm ii),
   imm8 fun ii => .addb (.imm ii),
   imm16 fun jjkk => .ldd (.imm jjkk),
   imm16 fun jjkk => .ldy (.imm jjkk),
   imm16 fun jjkk => .ldx (.imm jjkk),
   imm16 fun jjkk => .lds (.imm jjkk)]

/-- Opcodes $D0 to $DF of page 1 (R160). -/
def page1ColD (_v : Variant) : List (Reader Instr) :=
  [dir fun ea => .subb (.mem ea),
   dir fun ea => .cmpb (.mem ea),
   dir fun ea => .sbcb (.mem ea),
   dir fun ea => .addd (.mem ea),
   dir fun ea => .andb (.mem ea),
   dir fun ea => .bitb (.mem ea),
   dir fun ea => .ldab (.mem ea),
   inh .tstb,
   dir fun ea => .eorb (.mem ea),
   dir fun ea => .adcb (.mem ea),
   dir fun ea => .orab (.mem ea),
   dir fun ea => .addb (.mem ea),
   dir fun ea => .ldd (.mem ea),
   dir fun ea => .ldy (.mem ea),
   dir fun ea => .ldx (.mem ea),
   dir fun ea => .lds (.mem ea)]

/-- Opcodes $E0 to $EF of page 1 (R160). -/
def page1ColE (_v : Variant) : List (Reader Instr) :=
  [idx allForms fun xb => .subb (.mem (.idx xb)),
   idx allForms fun xb => .cmpb (.mem (.idx xb)),
   idx allForms fun xb => .sbcb (.mem (.idx xb)),
   idx allForms fun xb => .addd (.mem (.idx xb)),
   idx allForms fun xb => .andb (.mem (.idx xb)),
   idx allForms fun xb => .bitb (.mem (.idx xb)),
   idx allForms fun xb => .ldab (.mem (.idx xb)),
   idx allForms fun xb => .tst (.idx xb),
   idx allForms fun xb => .eorb (.mem (.idx xb)),
   idx allForms fun xb => .adcb (.mem (.idx xb)),
   idx allForms fun xb => .orab (.mem (.idx xb)),
   idx allForms fun xb => .addb (.mem (.idx xb)),
   idx allForms fun xb => .ldd (.mem (.idx xb)),
   idx allForms fun xb => .ldy (.mem (.idx xb)),
   idx allForms fun xb => .ldx (.mem (.idx xb)),
   idx allForms fun xb => .lds (.mem (.idx xb))]

/-- Opcodes $F0 to $FF of page 1 (R160). -/
def page1ColF (_v : Variant) : List (Reader Instr) :=
  [ext fun ea => .subb (.mem ea),
   ext fun ea => .cmpb (.mem ea),
   ext fun ea => .sbcb (.mem ea),
   ext fun ea => .addd (.mem ea),
   ext fun ea => .andb (.mem ea),
   ext fun ea => .bitb (.mem ea),
   ext fun ea => .ldab (.mem ea),
   ext .tst,
   ext fun ea => .eorb (.mem ea),
   ext fun ea => .adcb (.mem ea),
   ext fun ea => .orab (.mem ea),
   ext fun ea => .addb (.mem ea),
   ext fun ea => .ldd (.mem ea),
   ext fun ea => .ldy (.mem ea),
   ext fun ea => .ldx (.mem ea),
   ext fun ea => .lds (.mem ea)]

/-- Page 1. -/
def page1 (v : Variant) (op : Byte) : Reader Instr :=
  mapCell [page1Col0 v, page1Col1 v, page1Col2 v, page1Col3 v, page1Col4 v, page1Col5 v, page1Col6 v, page1Col7 v, page1Col8 v, page1Col9 v, page1ColA v, page1ColB v, page1ColC v, page1ColD v, page1ColE v, page1ColF v] op

/-- The instruction at the front of `bytes`, and the bytes after it (R120). -/
def decode (v : Variant) : Reader Instr := readByte.andThen (page1 v)

/-! The encoder. -/

/-- The two-bit base register code (R130). -/
def IdxBase.code : IdxBase → BitVec 2
  | .x => 0#2
  | .y => 1#2
  | .sp => 2#2
  | .pc => 3#2

/-- The two-bit code of an auto-modified register (R132). -/
def IdxReg.code : IdxReg → BitVec 2
  | .x => 0#2
  | .y => 1#2
  | .sp => 2#2

/-- The field `aa` of an accumulator offset (R136). -/
def IdxAcc.code : IdxAcc → BitVec 2
  | .a => 0#2
  | .b => 1#2
  | .d => 2#2

/-- The postbyte of an indexed operand and its extension bytes (R130 to R137). -/
def encXb : Xb → List Byte
  | .const5 base n => [base.code ++ 0#1 ++ n]
  | .auto r post k => [r.code ++ 1#1 ++ BitVec.ofBool post ++ k]
  | .const9 base n => [7#3 ++ base.code ++ 0#2 ++ n.extractLsb' 8 1, n.extractLsb' 0 8]
  | .const16 base n => [7#3 ++ base.code ++ 2#3, n.high, n.low]
  | .indirect16 base n => [7#3 ++ base.code ++ 3#3, n.high, n.low]
  | .acc off base => [7#3 ++ base.code ++ 1#1 ++ off.code]
  | .indirectD base => [7#3 ++ base.code ++ 7#3]

/-- A memory operand after its opcode: `pre` is the prebyte or nothing, then one opcode for each mode. -/
def encEa (pre : List Byte) (opDir opExt opIdx : Byte) : Ea → List Byte
  | .dir dd => pre ++ [opDir, dd]
  | .ext hhll => pre ++ [opExt, hhll.high, hhll.low]
  | .idx xb => pre ++ [opIdx] ++ encXb xb

/-- A memory operand of an instruction without a DIR row. -/
def encEaNoDir (pre : List Byte) (opExt opIdx : Byte) : Ea → List Byte
  | .dir _ => []
  | .ext hhll => pre ++ [opExt, hhll.high, hhll.low]
  | .idx xb => pre ++ [opIdx] ++ encXb xb

/-- An 8-bit source operand after its opcode. -/
def encSrc8 (pre : List Byte) (opImm opDir opExt opIdx : Byte) : Src8 → List Byte
  | .imm ii => pre ++ [opImm, ii]
  | .mem ea => encEa pre opDir opExt opIdx ea

/-- A 16-bit source operand after its opcode. -/
def encSrc16 (pre : List Byte) (opImm opDir opExt opIdx : Byte) : Src16 → List Byte
  | .imm jjkk => pre ++ [opImm, jjkk.high, jjkk.low]
  | .mem ea => encEa pre opDir opExt opIdx ea

/-- The forms of CALL (R144). -/
def encCall : CallOp → List Byte
  | .direct ea pg => encEaNoDir [] 0x4A 0x4B ea ++ [pg]
  | .indirect xb => [0x4B] ++ encXb xb

/-- The memory-to-memory forms of a move, in the order of R262. -/
def encMoveMem (opExtExt opExtIdx opIdxExt opIdxIdx : Byte) : Ea → Ea → List Byte
  | .ext src, .ext dst => [0x18, opExtExt, src.high, src.low, dst.high, dst.low]
  | .ext src, .idx dst => [0x18, opExtIdx] ++ encXb dst ++ [src.high, src.low]
  | .idx src, .ext dst => [0x18, opIdxExt] ++ encXb src ++ [dst.high, dst.low]
  | .idx src, .idx dst => [0x18, opIdxIdx] ++ encXb src ++ encXb dst
  | .dir _, _ => []
  | .ext _, .dir _ => []
  | .idx _, .dir _ => []

/-- The immediate forms of a move: the immediate bytes stand before an extended destination and after an indexed
one (R262). -/
def encMoveImm (opExt opIdx : Byte) (imm : List Byte) : Ea → List Byte
  | .dir _ => []
  | .ext dst => [0x18, opExt] ++ imm ++ [dst.high, dst.low]
  | .idx dst => [0x18, opIdx] ++ encXb dst ++ imm

/-- MOVB (R260, R262). -/
def encMovb (opImmExt opImmIdx opExtExt opExtIdx opIdxExt opIdxIdx : Byte) (src : Src8) (dst : Ea) : List Byte :=
  match src with
  | .imm ii => encMoveImm opImmExt opImmIdx [ii] dst
  | .mem ea => encMoveMem opExtExt opExtIdx opIdxExt opIdxIdx ea dst

/-- MOVW (R261, R262). -/
def encMovw (opImmExt opImmIdx opExtExt opExtIdx opIdxExt opIdxIdx : Byte) (src : Src16) (dst : Ea) : List Byte :=
  match src with
  | .imm jjkk => encMoveImm opImmExt opImmIdx [jjkk.high, jjkk.low] dst
  | .mem ea => encMoveMem opExtExt opExtIdx opIdxExt opIdxIdx ea dst

/-- The counter register code (R141). -/
def LoopReg.code : LoopReg → BitVec 3
  | .a => 0#3
  | .b => 1#3
  | .d => 4#3
  | .x => 5#3
  | .y => 6#3
  | .sp => 7#3

/-- A loop primitive: `04 lb rr` (R141). -/
def encLoop (sel : BitVec 3) (r : LoopReg) (off : BitVec 9) : List Byte :=
  [0x04, sel ++ off.extractLsb' 8 1 ++ 0#1 ++ r.code, off.extractLsb' 0 8]

/-- The register code (R270). -/
def XferReg.code : XferReg → BitVec 3
  | .a => 0#3
  | .b => 1#3
  | .ccr => 2#3
  | .tmp => 3#3
  | .d => 4#3
  | .x => 5#3
  | .y => 6#3
  | .sp => 7#3

/-- `eb = (exg << 7) | (r1 << 4) | (alt << 3) | r2` (R270). -/
def transferPostbyte (exg : Bool) (r1 : XferReg) (alt : Bool) (r2 : XferReg) : Byte :=
  BitVec.ofBool exg ++ r1.code ++ BitVec.ofBool alt ++ r2.code

/-- The first operand of SEX as a transfer register (R265). -/
def ByteReg.toXfer : ByteReg → XferReg
  | .a => .a
  | .b => .b
  | .ccr => .ccr

/-- The second operand of SEX as a transfer register (R265). -/
def WideReg.toXfer : WideReg → XferReg
  | .d => .d
  | .x => .x
  | .y => .y
  | .sp => .sp

/-- The object-code bytes of an instruction in memory order. An operand form that the instruction has no row for has
no bytes (R139). -/
def encode : Instr → List Byte
  | .ldaa src => encSrc8 [] 0x86 0x96 0xB6 0xA6 src
  | .ldab src => encSrc8 [] 0xC6 0xD6 0xF6 0xE6 src
  | .ldd src => encSrc16 [] 0xCC 0xDC 0xFC 0xEC src
  | .lds src => encSrc16 [] 0xCF 0xDF 0xFF 0xEF src
  | .ldx src => encSrc16 [] 0xCE 0xDE 0xFE 0xEE src
  | .ldy src => encSrc16 [] 0xCD 0xDD 0xFD 0xED src
  | .staa ea => encEa [] 0x5A 0x7A 0x6A ea
  | .stab ea => encEa [] 0x5B 0x7B 0x6B ea
  | .std ea => encEa [] 0x5C 0x7C 0x6C ea
  | .sts ea => encEa [] 0x5F 0x7F 0x6F ea
  | .stx ea => encEa [] 0x5E 0x7E 0x6E ea
  | .sty ea => encEa [] 0x5D 0x7D 0x6D ea
  | .gldaa ea => encEa [0x18] 0x96 0xB6 0xA6 ea
  | .gldab ea => encEa [0x18] 0xD6 0xF6 0xE6 ea
  | .gldd ea => encEa [0x18] 0xDC 0xFC 0xEC ea
  | .glds ea => encEa [0x18] 0xDF 0xFF 0xEF ea
  | .gldx ea => encEa [0x18] 0xDE 0xFE 0xEE ea
  | .gldy ea => encEa [0x18] 0xDD 0xFD 0xED ea
  | .gstaa ea => encEa [0x18] 0x5A 0x7A 0x6A ea
  | .gstab ea => encEa [0x18] 0x5B 0x7B 0x6B ea
  | .gstd ea => encEa [0x18] 0x5C 0x7C 0x6C ea
  | .gsts ea => encEa [0x18] 0x5F 0x7F 0x6F ea
  | .gstx ea => encEa [0x18] 0x5E 0x7E 0x6E ea
  | .gsty ea => encEa [0x18] 0x5D 0x7D 0x6D ea
  | .leas xb => [0x1B] ++ encXb xb
  | .leax xb => [0x1A] ++ encXb xb
  | .leay xb => [0x19] ++ encXb xb
  | .clr ea => encEaNoDir [] 0x79 0x69 ea
  | .clrw ea => encEaNoDir [0x18] 0x79 0x69 ea
  | .movb src dst => encMovb 0x0B 0x08 0x0C 0x09 0x0D 0x0A src dst
  | .movw src dst => encMovw 0x03 0x00 0x04 0x01 0x05 0x02 src dst
  | .tfr r1 r2 alt => [0xB7, transferPostbyte false r1 alt r2]
  | .exg r1 r2 alt => [0xB7, transferPostbyte true r1 alt r2]
  | .sex r1 r2 => [0xB7, transferPostbyte false r1.toXfer false r2.toXfer]
  | .adca src => encSrc8 [] 0x89 0x99 0xB9 0xA9 src
  | .adcb src => encSrc8 [] 0xC9 0xD9 0xF9 0xE9 src
  | .adda src => encSrc8 [] 0x8B 0x9B 0xBB 0xAB src
  | .addb src => encSrc8 [] 0xCB 0xDB 0xFB 0xEB src
  | .addd src => encSrc16 [] 0xC3 0xD3 0xF3 0xE3 src
  | .addx src => encSrc16 [0x18] 0x8B 0x9B 0xBB 0xAB src
  | .addy src => encSrc16 [0x18] 0xCB 0xDB 0xFB 0xEB src
  | .aded src => encSrc16 [0x18] 0xC3 0xD3 0xF3 0xE3 src
  | .adex src => encSrc16 [0x18] 0x89 0x99 0xB9 0xA9 src
  | .adey src => encSrc16 [0x18] 0xC9 0xD9 0xF9 0xE9 src
  | .sbca src => encSrc8 [] 0x82 0x92 0xB2 0xA2 src
  | .sbcb src => encSrc8 [] 0xC2 0xD2 0xF2 0xE2 src
  | .sbed src => encSrc16 [0x18] 0x83 0x93 0xB3 0xA3 src
  | .sbex src => encSrc16 [0x18] 0x82 0x92 0xB2 0xA2 src
  | .sbey src => encSrc16 [0x18] 0xC2 0xD2 0xF2 0xE2 src
  | .suba src => encSrc8 [] 0x80 0x90 0xB0 0xA0 src
  | .subb src => encSrc8 [] 0xC0 0xD0 0xF0 0xE0 src
  | .subd src => encSrc16 [] 0x83 0x93 0xB3 0xA3 src
  | .subx src => encSrc16 [0x18] 0x80 0x90 0xB0 0xA0 src
  | .suby src => encSrc16 [0x18] 0xC0 0xD0 0xF0 0xE0 src
  | .inc ea => encEaNoDir [] 0x72 0x62 ea
  | .incw ea => encEaNoDir [0x18] 0x72 0x62 ea
  | .dec ea => encEaNoDir [] 0x73 0x63 ea
  | .decw ea => encEaNoDir [0x18] 0x73 0x63 ea
  | .neg ea => encEaNoDir [] 0x70 0x60 ea
  | .negw ea => encEaNoDir [0x18] 0x70 0x60 ea
  | .cmpa src => encSrc8 [] 0x81 0x91 0xB1 0xA1 src
  | .cmpb src => encSrc8 [] 0xC1 0xD1 0xF1 0xE1 src
  | .cpd src => encSrc16 [] 0x8C 0x9C 0xBC 0xAC src
  | .cps src => encSrc16 [] 0x8F 0x9F 0xBF 0xAF src
  | .cpx src => encSrc16 [] 0x8E 0x9E 0xBE 0xAE src
  | .cpy src => encSrc16 [] 0x8D 0x9D 0xBD 0xAD src
  | .cped src => encSrc16 [0x18] 0x8C 0x9C 0xBC 0xAC src
  | .cpes src => encSrc16 [0x18] 0x8F 0x9F 0xBF 0xAF src
  | .cpex src => encSrc16 [0x18] 0x8E 0x9E 0xBE 0xAE src
  | .cpey src => encSrc16 [0x18] 0x8D 0x9D 0xBD 0xAD src
  | .tst ea => encEaNoDir [] 0xF7 0xE7 ea
  | .tstw ea => encEaNoDir [0x18] 0xF7 0xE7 ea
  | .bita src => encSrc8 [] 0x85 0x95 0xB5 0xA5 src
  | .bitb src => encSrc8 [] 0xC5 0xD5 0xF5 0xE5 src
  | .bitx src => encSrc16 [0x18] 0x85 0x95 0xB5 0xA5 src
  | .bity src => encSrc16 [0x18] 0xC5 0xD5 0xF5 0xE5 src
  | .anda src => encSrc8 [] 0x84 0x94 0xB4 0xA4 src
  | .andb src => encSrc8 [] 0xC4 0xD4 0xF4 0xE4 src
  | .andx src => encSrc16 [0x18] 0x84 0x94 0xB4 0xA4 src
  | .andy src => encSrc16 [0x18] 0xC4 0xD4 0xF4 0xE4 src
  | .oraa src => encSrc8 [] 0x8A 0x9A 0xBA 0xAA src
  | .orab src => encSrc8 [] 0xCA 0xDA 0xFA 0xEA src
  | .orx src => encSrc16 [0x18] 0x8A 0x9A 0xBA 0xAA src
  | .ory src => encSrc16 [0x18] 0xCA 0xDA 0xFA 0xEA src
  | .eora src => encSrc8 [] 0x88 0x98 0xB8 0xA8 src
  | .eorb src => encSrc8 [] 0xC8 0xD8 0xF8 0xE8 src
  | .eorx src => encSrc16 [0x18] 0x88 0x98 0xB8 0xA8 src
  | .eory src => encSrc16 [0x18] 0xC8 0xD8 0xF8 0xE8 src
  | .com ea => encEaNoDir [] 0x71 0x61 ea
  | .comw ea => encEaNoDir [0x18] 0x71 0x61 ea
  | .andcc ii => [0x10, ii]
  | .orcc ii => [0x14, ii]
  | .bclr ea mm => encEa [] 0x4D 0x1D 0x0D ea ++ [mm]
  | .bset ea mm => encEa [] 0x4C 0x1C 0x0C ea ++ [mm]
  | .btas ea mm => encEa [0x18] 0x35 0x36 0x37 ea ++ [mm]
  | .asl ea => encEaNoDir [] 0x78 0x68 ea
  | .aslw ea => encEaNoDir [0x18] 0x78 0x68 ea
  | .asr ea => encEaNoDir [] 0x77 0x67 ea
  | .asrw ea => encEaNoDir [0x18] 0x77 0x67 ea
  | .lsl ea => encEaNoDir [] 0x78 0x68 ea
  | .lsr ea => encEaNoDir [] 0x74 0x64 ea
  | .lsrw ea => encEaNoDir [0x18] 0x74 0x64 ea
  | .rol ea => encEaNoDir [] 0x75 0x65 ea
  | .rolw ea => encEaNoDir [0x18] 0x75 0x65 ea
  | .ror ea => encEaNoDir [] 0x76 0x66 ea
  | .rorw ea => encEaNoDir [0x18] 0x76 0x66 ea
  | .emacs hhll => [0x18, 0x12, hhll.high, hhll.low]
  | .maxa xb => [0x18, 0x18] ++ encXb xb
  | .maxm xb => [0x18, 0x1C] ++ encXb xb
  | .mina xb => [0x18, 0x19] ++ encXb xb
  | .minm xb => [0x18, 0x1D] ++ encXb xb
  | .emaxd xb => [0x18, 0x1A] ++ encXb xb
  | .emaxm xb => [0x18, 0x1E] ++ encXb xb
  | .emind xb => [0x18, 0x1B] ++ encXb xb
  | .eminm xb => [0x18, 0x1F] ++ encXb xb
  | .tbl xb => [0x18, 0x3D] ++ encXb xb
  | .etbl xb => [0x18, 0x3F] ++ encXb xb
  | .bcc rr => [0x24, rr]
  | .bcs rr => [0x25, rr]
  | .beq rr => [0x27, rr]
  | .bge rr => [0x2C, rr]
  | .bgt rr => [0x2E, rr]
  | .bhi rr => [0x22, rr]
  | .bhs rr => [0x24, rr]
  | .ble rr => [0x2F, rr]
  | .blo rr => [0x25, rr]
  | .bls rr => [0x23, rr]
  | .blt rr => [0x2D, rr]
  | .bmi rr => [0x2B, rr]
  | .bne rr => [0x26, rr]
  | .bpl rr => [0x2A, rr]
  | .bra rr => [0x20, rr]
  | .brn rr => [0x21, rr]
  | .bvc rr => [0x28, rr]
  | .bvs rr => [0x29, rr]
  | .lbcc qqrr => [0x18, 0x24, qqrr.high, qqrr.low]
  | .lbcs qqrr => [0x18, 0x25, qqrr.high, qqrr.low]
  | .lbeq qqrr => [0x18, 0x27, qqrr.high, qqrr.low]
  | .lbge qqrr => [0x18, 0x2C, qqrr.high, qqrr.low]
  | .lbgt qqrr => [0x18, 0x2E, qqrr.high, qqrr.low]
  | .lbhi qqrr => [0x18, 0x22, qqrr.high, qqrr.low]
  | .lbhs qqrr => [0x18, 0x24, qqrr.high, qqrr.low]
  | .lble qqrr => [0x18, 0x2F, qqrr.high, qqrr.low]
  | .lblo qqrr => [0x18, 0x25, qqrr.high, qqrr.low]
  | .lbls qqrr => [0x18, 0x23, qqrr.high, qqrr.low]
  | .lblt qqrr => [0x18, 0x2D, qqrr.high, qqrr.low]
  | .lbmi qqrr => [0x18, 0x2B, qqrr.high, qqrr.low]
  | .lbne qqrr => [0x18, 0x26, qqrr.high, qqrr.low]
  | .lbpl qqrr => [0x18, 0x2A, qqrr.high, qqrr.low]
  | .lbra qqrr => [0x18, 0x20, qqrr.high, qqrr.low]
  | .lbrn qqrr => [0x18, 0x21, qqrr.high, qqrr.low]
  | .lbvc qqrr => [0x18, 0x28, qqrr.high, qqrr.low]
  | .lbvs qqrr => [0x18, 0x29, qqrr.high, qqrr.low]
  | .brclr ea mm rr => encEa [] 0x4F 0x1F 0x0F ea ++ [mm, rr]
  | .brset ea mm rr => encEa [] 0x4E 0x1E 0x0E ea ++ [mm, rr]
  | .dbeq r off => encLoop 0#3 r off
  | .dbne r off => encLoop 1#3 r off
  | .ibeq r off => encLoop 4#3 r off
  | .ibne r off => encLoop 5#3 r off
  | .tbeq r off => encLoop 2#3 r off
  | .tbne r off => encLoop 3#3 r off
  | .bsr rr => [0x07, rr]
  | .jsr ea => encEa [] 0x17 0x16 0x15 ea
  | .call op => encCall op
  | .jmp ea => encEaNoDir [] 0x06 0x05 ea
  | .trap tn => [0x18, tn]
  | .clra => [0x87]
  | .clrb => [0xC7]
  | .clrx => [0x18, 0x87]
  | .clry => [0x18, 0xC7]
  | .psha => [0x36]
  | .pshb => [0x37]
  | .pshc => [0x39]
  | .pshcw => [0x18, 0x39]
  | .pshd => [0x3B]
  | .pshx => [0x34]
  | .pshy => [0x35]
  | .pula => [0x32]
  | .pulb => [0x33]
  | .pulc => [0x38]
  | .pulcw => [0x18, 0x38]
  | .puld => [0x3A]
  | .pulx => [0x30]
  | .puly => [0x31]
  | .tap => [0xB7, 0x02]
  | .tpa => [0xB7, 0x20]
  | .tsx => [0xB7, 0x75]
  | .tsy => [0xB7, 0x76]
  | .txs => [0xB7, 0x57]
  | .tys => [0xB7, 0x67]
  | .xgdx => [0xB7, 0xC5]
  | .xgdy => [0xB7, 0xC6]
  | .tab => [0x18, 0x0E]
  | .tba => [0x18, 0x0F]
  | .aba => [0x18, 0x06]
  | .abx => [0x1A, 0xE5]
  | .aby => [0x19, 0xED]
  | .sba => [0x18, 0x16]
  | .daa => [0x18, 0x07]
  | .inca => [0x42]
  | .incb => [0x52]
  | .incx => [0x18, 0x42]
  | .incy => [0x18, 0x52]
  | .inx => [0x08]
  | .iny => [0x02]
  | .ins => [0x1B, 0x81]
  | .deca => [0x43]
  | .decb => [0x53]
  | .decx => [0x18, 0x43]
  | .decy => [0x18, 0x53]
  | .dex => [0x09]
  | .dey => [0x03]
  | .des => [0x1B, 0x9F]
  | .nega => [0x40]
  | .negb => [0x50]
  | .negx => [0x18, 0x40]
  | .negy => [0x18, 0x50]
  | .cba => [0x18, 0x17]
  | .tsta => [0x97]
  | .tstb => [0xD7]
  | .tstx => [0x18, 0x97]
  | .tsty => [0x18, 0xD7]
  | .coma => [0x41]
  | .comb => [0x51]
  | .comx => [0x18, 0x41]
  | .comy => [0x18, 0x51]
  | .clc => [0x10, 0xFE]
  | .cli => [0x10, 0xEF]
  | .clv => [0x10, 0xFD]
  | .sec => [0x14, 0x01]
  | .sei => [0x14, 0x10]
  | .sev => [0x14, 0x02]
  | .asla => [0x48]
  | .aslb => [0x58]
  | .asld => [0x59]
  | .aslx => [0x18, 0x48]
  | .asly => [0x18, 0x58]
  | .asra => [0x47]
  | .asrb => [0x57]
  | .asrx => [0x18, 0x47]
  | .asry => [0x18, 0x57]
  | .lsla => [0x48]
  | .lslb => [0x58]
  | .lsld => [0x59]
  | .lsra => [0x44]
  | .lsrb => [0x54]
  | .lsrd => [0x49]
  | .lsrx => [0x18, 0x44]
  | .lsry => [0x18, 0x54]
  | .rola => [0x45]
  | .rolb => [0x55]
  | .rolx => [0x18, 0x45]
  | .roly => [0x18, 0x55]
  | .rora => [0x46]
  | .rorb => [0x56]
  | .rorx => [0x18, 0x46]
  | .rory => [0x18, 0x56]
  | .mul => [0x12]
  | .emul => [0x13]
  | .emuls => [0x18, 0x13]
  | .ediv => [0x11]
  | .edivs => [0x18, 0x14]
  | .fdiv => [0x18, 0x11]
  | .idiv => [0x18, 0x10]
  | .idivs => [0x18, 0x15]
  | .mem => [0x01]
  | .rev => [0x18, 0x3A]
  | .revw => [0x18, 0x3B]
  | .wav => [0x18, 0x3C]
  | .wavr => [0x3C]
  | .rtc => [0x0A]
  | .rts => [0x3D]
  | .nop => [0xA7]
  | .bgnd => [0x00]
  | .swi => [0x3F]
  | .rti => [0x0B]
  | .wai => [0x3E]
  | .stop => [0x18, 0x3E]

/-- The `n` bytes of a number, the high-order byte first. -/
def bigEndianBytes : Nat → Nat → List Byte
  | 0, _ => []
  | n + 1, w => BitVec.ofNat 8 (w >>> (8 * n)) :: bigEndianBytes n w

/-- The bytes of an instruction whose first `nbits` bits are `w`: the opcode table reads the first bytes of an
instruction as one big-endian number (R166), and the bytes after them are zero, up to the longest instruction. -/
def tableBytes (nbits w : Nat) : List Byte := (bigEndianBytes (nbits / 8) w ++ List.replicate 8 0#8).take 8

/-- The instruction the decoder of the variant at reset (HCS12X) reads from a word of the opcode table. -/
def decodeTableWord (nbits w : Nat) : Option Instr :=
  match decode .hcs12x (tableBytes nbits w) with
  | .ok (i, _) => some i
  | .error _ => none

end Sys2Proof
end

