-- ==== Sys2Proof/Machine/State.lean ====
section
/-! DEFINITION. The state of the machine (R40), the reasons a step can stop, and the state right after reset. -/

namespace Sys2Proof.Machine

/-- The reasons the machine stops with a fault: none. The spec names no faulting access, operand or address (R18,
R94, R660), and nothing in it is stuck (section 2 of `93_implementation_defined.md`). -/
inductive Fault where
  deriving DecidableEq, Repr

/-- The reasons a step refuses. -/
inductive Refusal where
  /-- Raised by an arm of `exec` whose instruction has no meaning yet; no arm is left so. Safe. -/
  | notModelled (mnemonic : String)
  /-- Raised by `step` when the bytes at the program counter stand for no instruction of the variant: an encoding
  the spec leaves without a meaning and refuses (R164, U5 to U8). Safe. -/
  | undefinedEncoding (reason : DecodeError)
  deriving DecidableEq, Repr

/-- What the CPU is doing (R63). -/
inductive RunState where
  /-- Instructions execute. -/
  | running
  /-- After WAI, until an unmasked interrupt or a reset. -/
  | waiting
  /-- After STOP with S = 0, until an interrupt or a reset. -/
  | stopped
  /-- After BGND with `BdmEnabled`, until the environment or a reset ends it. -/
  | background
  deriving DecidableEq, Repr

/-- The record of one interrupted WAV (R566, D9): where its three words lie, what they are, and the sums they stand
for. -/
structure WavFrame where
  sp : Word
  word0 : Word
  word1 : Word
  word2 : Word
  weighted : Nat
  weights : Nat
  deriving DecidableEq, Repr

/-- The state of one CPU with its memory (R40). -/
structure State where
  /-- Accumulator A (R41). -/
  a : Byte
  /-- Accumulator B (R41). -/
  b : Byte
  /-- Index register X (R43). -/
  x : Word
  /-- Index register Y (R43). -/
  y : Word
  /-- Stack pointer (R44). -/
  sp : Word
  /-- Program counter (R45). `exec` is given the address of the byte after the instruction here, `PCnext`. -/
  pc : Word
  /-- Condition code register, bits S X H I N Z V C from bit 7 down (R47). -/
  ccr : Byte
  /-- High byte of the condition code register, HCS12X only (R56). -/
  ccrh : Byte
  /-- Program page register (R57). -/
  ppage : Byte
  /-- Global page register of `GPAGE_BITS` bits, HCS12X only (R58). -/
  gpage : Nat
  /-- Internal temporary TMP1 (R59). -/
  tmp1 : Word
  /-- Internal temporary TMP2 (R59). -/
  tmp2 : Word
  /-- Internal temporary TMP3 (R59). -/
  tmp3 : Word
  /-- The logical memory (R60, R80), by location, in canonical form. -/
  mem : List Host.Cell
  /-- The global memory (R84), by global address, in canonical form. -/
  gmem : List Host.Cell
  /-- The model's own: the state of the platform's devices together, which `Config.deviceRead`,
  `Config.deviceAfterRead` and `Config.deviceAfterWrite` interpret (R93, D3). -/
  devices : Nat
  /-- R63. -/
  runState : RunState
  /-- The requests that are raised and not yet taken; the environment raises and withdraws them (R62). -/
  pending : List Request
  /-- The model's own: bytes the instruction queue may still hold at an address although memory there has changed
  (R61, R711). -/
  queue : List (Word × Byte)
  /-- The model's own: whether the instruction under way has changed the flow, which refills the instruction queue (R91,
  R711). -/
  refilled : Bool
  /-- The model's own: a request that arrives in mid-execution, an input of the environment. A reset arrives in the
  middle of what the CPU does next, of REV, REVW, WAV or wavr in the loop pass with this number, counted from 0
  (R662); any other request in the next REV, REVW, WAV or wavr, at the comma of the loop pass with this number (R675).
  -/
  arrival : Option (Nat × Request)
  /-- The model's own: the records of interrupted WAVs (R566, D9). -/
  wavFrames : List WavFrame
  /-- The model's own: the counter that the free values of `Config` are applied to; each step advances it. -/
  fresh : Nat
  /-- The parameters of the machine (R5); no step changes them. -/
  params : Params
  deriving DecidableEq, Repr

/-- The state right after a power-on reset of an HCS12X with the default parameters. S, X and I are set and PC is the
word at $FFFE (R700), which reads as $0000 in a memory that lists nothing. H, N, Z, V, C, A, B, X, Y, SP, PPAGE and
TMP1 to TMP3 have no value in the spec (R65): zero (DESIGN CHOICE, log entry 2, unsafe); the state of the devices is
the number 0 (DESIGN CHOICE, log entry 8, unsafe); CCRH and GPAGE are zero as in the family (PRESUMED, log entry 3,
unsafe). -/
def State.reset : State where
  a := 0#8
  b := 0#8
  x := 0#16
  y := 0#16
  sp := 0#16
  pc := 0#16
  ccr := 0xD0#8
  ccrh := 0#8
  ppage := 0#8
  gpage := 0
  tmp1 := 0#16
  tmp2 := 0#16
  tmp3 := 0#16
  mem := []
  gmem := []
  devices := 0
  runState := .running
  pending := []
  queue := []
  refilled := false
  arrival := none
  wavFrames := []
  fresh := 0
  params := {}

end Sys2Proof.Machine
end

