-- ==== Sys2Proof/Machine/Flags.lean ====
section
/-! DEFINITION. The bits of the condition code register (R47) and the flag formulas of the spec (R13 to R17, R301 to
R306, R381, R471, R520 to R523). Every formula is written here once. -/

namespace Sys2Proof.Machine

/-- The eight condition code bits (R47); `x` is the mask of XIRQ, written XM in the spec's pseudocode. -/
inductive Flag where
  | c | v | z | n | i | h | x | s
  deriving DecidableEq, Repr

/-- The bit number of a flag in CCR (R47). -/
def Flag.bit : Flag → Nat
  | .c => 0
  | .v => 1
  | .z => 2
  | .n => 3
  | .i => 4
  | .h => 5
  | .x => 6
  | .s => 7

/-- The mask of a flag in CCR (R47). -/
def Flag.mask (f : Flag) : Byte := 1#8 <<< f.bit

/-- The value of a flag in a condition code byte. -/
def flagOf (k : Byte) (f : Flag) : Bool := k.getLsbD f.bit

/-- A condition code byte with one flag written. -/
def withFlag (k : Byte) (f : Flag) (b : Bool) : Byte :=
  if b then k ||| f.mask else k &&& ~~~f.mask

/-- N and Z written. -/
def withNZ (k : Byte) (n z : Bool) : Byte := withFlag (withFlag k .n n) .z z

/-- N, Z and V written: the column pattern "ΔΔΔ–". -/
def withNZV (k : Byte) (n z v : Bool) : Byte := withFlag (withNZ k n z) .v v

/-- N, Z, V and C written: the column pattern "ΔΔΔΔ". -/
def withNZVC (k : Byte) (n z v c : Bool) : Byte := withFlag (withNZV k n z v) .c c

/-- The value of CCR after `WriteCCR(v)`: `v`, except that the X mask bit can be cleared and never set (R17). -/
def writtenCcr (old v : Byte) : Byte := withFlag v .x (flagOf v .x && flagOf old .x)

/-- The value of CCRH after a write under `CCRH_WMASK` (R17, D6). -/
def writtenCcrh (wmask old v : Byte) : Byte := (old &&& ~~~wmask) ||| (v &&& wmask)

/-- The result of an arithmetic operation and the four flags it defines. -/
structure Alu (w : Nat) where
  r : BitVec w
  n : Bool
  z : Bool
  v : Bool
  c : Bool
  deriving DecidableEq, Repr

/-- The flags of an arithmetic operation written: "ΔΔΔΔ". -/
def withAlu {w : Nat} (k : Byte) (f : Alu w) : Byte := withNZVC k f.n f.z f.v f.c

/-- `ADD8` and `ADD16` (R14): the sum on unbounded integers, narrowed. -/
def addAlu {w : Nat} (a b : BitVec w) (cin : Bool) : Alu w :=
  let sum := a.toNat + b.toNat + cin.toNat
  let r := BitVec.ofNat w sum
  { r := r, n := r.msb, z := r == 0#w, v := a.msb == b.msb && r.msb != a.msb, c := decide (2 ^ w ≤ sum) }

/-- H of `ADD8` (R14): the carry out of bit 3. -/
def halfCarry (a b : Byte) (cin : Bool) : Bool :=
  decide (15 < a.toNat % 16 + b.toNat % 16 + cin.toNat)

/-- `SUB8` and `SUB16` (R15): the difference on unbounded integers, narrowed; C is the borrow. -/
def subAlu {w : Nat} (a b : BitVec w) (bin : Bool) : Alu w :=
  let diff : Int := (a.toNat : Int) - (b.toNat : Int) - (bin.toNat : Int)
  let r := BitVec.ofInt w diff
  { r := r, n := r.msb, z := r == 0#w, v := a.msb != b.msb && r.msb != a.msb, c := decide (diff < 0) }

/-- Z of the HCS12X 16-bit instructions with carry under `ExtZMode` (R304, D17). -/
def extZ (mode : ExtZMode) (k : Byte) (z : Bool) : Bool :=
  match mode with
  | .plain => z
  | .sticky => flagOf k .z && z

/-- The same result with Z under `ExtZMode` (R304). -/
def Alu.withExtZ {w : Nat} (f : Alu w) (mode : ExtZMode) (k : Byte) : Alu w := { f with z := extZ mode k f.z }

/-- `LOGIC8` and `LOGIC16` (R16), also the flags of every load and store (R200): N and Z from the value, V cleared,
C unchanged. -/
def logicCcr {w : Nat} (k : Byte) (r : BitVec w) : Byte := withNZV k r.msb (r == 0#w) false

/-- TST (R381): N and Z from the operand, V and C cleared. -/
def testCcr {w : Nat} (k : Byte) (r : BitVec w) : Byte := withNZVC k r.msb (r == 0#w) false false

/-- CLR (R229 to R234): N, V, C cleared and Z set. -/
def clearCcr (k : Byte) : Byte := withNZVC k false true false false

/-- COM (R434 to R439): N and Z from the result, V cleared, C set. -/
def complementCcr {w : Nat} (k : Byte) (r : BitVec w) : Byte := withNZVC k r.msb (r == 0#w) false true

/-- INC (R305): N and Z from the result, V when the operand was the largest positive number, C unchanged. -/
def incCcr {w : Nat} (k : Byte) (a : BitVec w) : Byte :=
  withNZV k (a + 1#w).msb (a + 1#w == 0#w) (a == BitVec.intMax w)

/-- DEC (R305): N and Z from the result, V when the operand was the most negative number, C unchanged. -/
def decCcr {w : Nat} (k : Byte) (a : BitVec w) : Byte :=
  withNZV k (a - 1#w).msb (a - 1#w == 0#w) (a == BitVec.intMin w)

/-- A shift's result with the bit shifted out in C, and V = N xor C (R471). -/
def shiftAlu {w : Nat} (r : BitVec w) (c : Bool) : Alu w :=
  { r := r, n := r.msb, z := r == 0#w, v := r.msb != c, c := c }

/-- ASL and LSL (R471). -/
def aslAlu {w : Nat} (a : BitVec w) : Alu w := shiftAlu (a <<< 1) a.msb

/-- LSR (R471). -/
def lsrAlu {w : Nat} (a : BitVec w) : Alu w := shiftAlu (a >>> 1) (a.getLsbD 0)

/-- ASR (R471): the top bit is kept. -/
def asrAlu {w : Nat} (a : BitVec w) : Alu w := shiftAlu (a.sshiftRight 1) (a.getLsbD 0)

/-- ROL (R471): the old carry enters bit 0. -/
def rolAlu {w : Nat} (a : BitVec w) (cin : Bool) : Alu w :=
  shiftAlu ((a <<< 1) ||| (BitVec.ofBool cin).setWidth w) a.msb

/-- ROR (R471): the old carry enters the top bit. -/
def rorAlu {w : Nat} (a : BitVec w) (cin : Bool) : Alu w :=
  shiftAlu ((a >>> 1) ||| ((BitVec.ofBool cin).setWidth w <<< (w - 1))) (a.getLsbD 0)

/-- H, N, Z, V, C all written: the fuzzy instructions (R560). -/
def withHNZVC (k : Byte) (h n z v c : Bool) : Byte := withNZVC (withFlag k .h h) n z v c

/-- The masks an exception sets: I always, X for XIRQ only (R671). -/
def maskedCcr (k : Byte) (isXirq : Bool) : Byte :=
  let k1 := withFlag k .i true
  if isXirq then withFlag k1 .x true else k1

end Sys2Proof.Machine
end

