-- ==== Sys2Proof/Machine/Memory.lean ====
section
/-! DEFINITION. A memory as a list of cells in canonical form: addresses strictly rising, and no cell that holds what
an unlisted address reads as. -/

namespace Sys2Proof.Machine

/-- What an address that no cell lists reads as: $00. The spec gives memory no value after power-on (R65, U17):
DESIGN CHOICE, log entry 1, unsafe. -/
def unlistedByte : Byte := 0#8

/-- The byte at an address. -/
def memGet : List Host.Cell → Nat → Byte
  | [], _ => unlistedByte
  | (k, b) :: rest, addr => if k = addr then b else memGet rest addr

/-- One byte written, in canonical form: a cell that would hold the unlisted byte is not listed. -/
def memSet : List Host.Cell → Nat → Byte → List Host.Cell
  | [], addr, v => if v = unlistedByte then [] else [(addr, v)]
  | (k, b) :: rest, addr, v =>
    if addr < k then
      if v = unlistedByte then (k, b) :: rest else (addr, v) :: (k, b) :: rest
    else if addr = k then
      if v = unlistedByte then rest else (addr, v) :: rest
    else (k, b) :: memSet rest addr v

/-- Every address of the list lies at or above `bound`, strictly rising, with no unlisted byte. -/
def memWfFrom : Nat → List Host.Cell → Bool
  | _, [] => true
  | bound, (k, b) :: rest => decide (bound ≤ k) && b != unlistedByte && memWfFrom (k + 1) rest

/-- The canonical form. -/
def memWf (m : List Host.Cell) : Bool := memWfFrom 0 m

/-- The canonical memory that holds the cells of a list, a later cell over an earlier one. -/
def memOfCells (cells : List Host.Cell) : List Host.Cell :=
  cells.foldl (fun m c => memSet m c.1 c.2) []

end Sys2Proof.Machine
end

