-- ==== Sys2Proof/Machine/Ops.lean ====
section
/-! DEFINITION. The named operations over registers and memory: reading and writing registers (R9, R41 to R59),
logical and global memory through the platform's map (R10, R80, R84, R85), the stack (R12), the condition codes as a
whole (R17), taking an exception (R668) and returning from one (R672), and reset (R700). -/

namespace Sys2Proof.Machine

/-- What a meaning answers. -/
abbrev Result := Host.Outcome State Fault Refusal

/-! ### Registers -/

/-- The 8-bit accumulators (R41). -/
inductive Reg8 where
  | a | b
  deriving DecidableEq, Repr

/-- The 16-bit registers; D is A:B and no state of its own (R42 to R44). -/
inductive Reg16 where
  | d | x | y | sp
  deriving DecidableEq, Repr

/-- D reads A:B (R42). -/
def State.d (s : State) : Word := wordOf s.a s.b

/-- D written: A takes the high byte and B the low byte (R42). -/
def State.setD (s : State) (v : Word) : State := { s with a := v.high, b := v.low }

/-- An accumulator read. -/
def State.get8 (s : State) : Reg8 → Byte
  | .a => s.a
  | .b => s.b

/-- An accumulator written. -/
def State.set8 (s : State) (r : Reg8) (v : Byte) : State :=
  match r with
  | .a => { s with a := v }
  | .b => { s with b := v }

/-- A 16-bit register read. -/
def State.get16 (s : State) : Reg16 → Word
  | .d => s.d
  | .x => s.x
  | .y => s.y
  | .sp => s.sp

/-- A 16-bit register written. -/
def State.set16 (s : State) (r : Reg16) (v : Word) : State :=
  match r with
  | .d => s.setD v
  | .x => { s with x := v }
  | .y => { s with y := v }
  | .sp => { s with sp := v }

/-- A condition code bit read (R47). -/
def State.flag (s : State) (f : Flag) : Bool := flagOf s.ccr f

/-- The condition code byte written by an operation that may write each of its bits. -/
def State.setCcr (s : State) (k : Byte) : State := { s with ccr := k }

/-- `WriteCCR(v)` (R17). -/
def State.writeCcr (s : State) (v : Byte) : State := { s with ccr := writtenCcr s.ccr v }

/-- CCRH written under `CCRH_WMASK` (R17, R267). -/
def State.writeCcrh (s : State) (v : Byte) : State :=
  { s with ccrh := writtenCcrh s.params.ccrhWmask s.ccrh v }

/-- `WriteCCRW(v)` (R17). -/
def State.writeCcrw (s : State) (v : Word) : State := (s.writeCcr v.low).writeCcrh v.high

/-- CCRW reads CCRH:CCR (R56). -/
def State.ccrw (s : State) : Word := wordOf s.ccrh s.ccr

/-! ### Memory -/

/-- Where a byte access goes. -/
inductive Place where
  /-- Plain memory of the logical store. -/
  | cell (loc : Nat)
  /-- Memory of the logical store that drops writes. -/
  | rom (loc : Nat)
  /-- Plain memory of the global store. -/
  | globalCell (loc : Nat)
  /-- Memory of the global store that drops writes. -/
  | globalRom (loc : Nat)
  /-- A register of the platform's devices, by its number. -/
  | device (reg : Nat)
  /-- Nothing. -/
  | openBus (addr : Nat)
  /-- PPAGE at the address the platform gives it. -/
  | ppageReg
  /-- GPAGE at the address the platform gives it. -/
  | gpageReg
  deriving DecidableEq, Repr

/-- What `MemMap` has at a logical address (D3): the first region that holds it, and plain memory in none. -/
def kindIn : List Region → Nat → RegionKind
  | [], _ => .ram
  | g :: rest, addr => if g.lo ≤ addr ∧ addr ≤ g.hi then g.kind else kindIn rest addr

/-- Whether a window holds an address while PPAGE has a value (D4). -/
def windowHolds (w : PageWindow) (page : Byte) (addr : Nat) : Bool :=
  decide (w.lo ≤ addr ∧ addr ≤ w.hi ∧ w.pageLo ≤ page.toNat ∧ page.toNat ≤ w.pageHi)

/-- `PageTranslate` (R85, D4): by the first window that holds the address, and the identity in none. -/
def pageLocation : List PageWindow → Byte → Nat → Nat
  | [], _, addr => addr
  | w :: rest, page, addr =>
    if windowHolds w page addr then w.base + page.toNat * w.size + (addr - w.lo) else pageLocation rest page addr

/-- The place of what `MemMap` has at logical address `addr`, whose location is `loc`: a device register is numbered by
its address. -/
def placeOf (kind : RegionKind) (loc addr : Nat) : Place :=
  match kind with
  | .ram => .cell loc
  | .rom => .rom loc
  | .device => .device addr
  | .openBus => .openBus addr
  | .ppageReg => .ppageReg
  | .gpageReg => .gpageReg

/-- The place of what the platform has at location `loc` of the global space. -/
def globalPlaceOf (kind : RegionKind) (loc : Nat) : Place :=
  match kind with
  | .ram => .globalCell loc
  | .rom => .globalRom loc
  | .device => .device loc
  | .openBus => .openBus loc
  | .ppageReg => .ppageReg
  | .gpageReg => .gpageReg

/-- Where an access to a logical address goes (R80, R85). -/
def State.place (s : State) (addr : Word) : Place :=
  placeOf (kindIn s.params.memMap addr.toNat) (pageLocation s.params.pageWindows s.ppage addr.toNat) addr.toNat

/-- Where a vector fetch goes: the logical space through `MemMap`, with no paging applied (R661). -/
def State.vectorPlace (s : State) (addr : Word) : Place :=
  placeOf (kindIn s.params.memMap addr.toNat) addr.toNat addr.toNat

/-- `GlobalTranslate` (R10, R84, D5), by the concatenation GPAGE:ea: by the first window that holds it, and that
concatenation itself in none. -/
def translateGlobal : List TranslateWindow → Nat → Nat
  | [], c => c
  | w :: rest, c => if w.lo ≤ c ∧ c ≤ w.hi then w.base + (c - w.lo) else translateGlobal rest c

/-- The place of byte `k` of what `MemMap` has in the global space (R84): a logical address goes through `MemMap` and
`PageTranslate` as in a logical access. -/
def State.targetPlace (s : State) (target : GlobalTarget) (k : Nat) : Place :=
  match target with
  | .logical base => s.place (BitVec.ofNat 16 (base + k))
  | .logicalStore kind base => placeOf kind (base + k) (base + k)
  | .globalStore kind base => globalPlaceOf kind (base + k)

/-- Where an access to a global address goes (R84, D5): to the first window that holds it, and to plain global memory
in none. -/
def State.globalPlace (s : State) : List GlobalWindow → Nat → Place
  | [], g => .globalCell g
  | w :: rest, g => if w.lo ≤ g ∧ g ≤ w.hi then s.targetPlace w.target (g - w.lo) else s.globalPlace rest g

/-- The global address of byte `k` of an access at `ea`: `GlobalTranslate(GPAGE, ea)`, plus `k` (R10, R84, D5): the
second byte of a word is not translated on its own. Where that address is the last one of the global space, in the
default map GPAGE all ones and `ea` $FFFF, the second byte is the location after the space and does not wrap to 0:
DESIGN CHOICE, log entry 7, unsafe (R84 says "global address + 1" and no more). -/
def State.globalAddress (s : State) (ea : Word) (k : Nat) : Nat :=
  translateGlobal s.params.globalTranslate (s.gpage * 65536 + ea.toNat) + k

/-- Where byte `k` of a global access at `ea` goes (R84). -/
def State.globalPlaceAt (s : State) (ea : Word) (k : Nat) : Place :=
  s.globalPlace s.params.globalWindows (s.globalAddress ea k)

/-- One byte read from a place: what the read returns. A device answers by its read function, nothing gives a free
value (D3, U19); no read faults (R94). GPAGE gives its low eight bits (DESIGN CHOICE, log entry 8). -/
def State.getPlace (s : State) : Place → Byte
  | .cell loc => memGet s.mem loc
  | .rom loc => memGet s.mem loc
  | .globalCell loc => memGet s.gmem loc
  | .globalRom loc => memGet s.gmem loc
  | .device reg => Config.deviceRead s.fresh reg s.devices
  | .openBus addr => Config.openBus s.fresh addr
  | .ppageReg => s.ppage
  | .gpageReg => BitVec.ofNat 8 s.gpage

/-- The state after a byte is read from a place: only a device register's read may have a side effect (R93, D3). -/
def State.accessed (s : State) (p : Place) : State :=
  match p with
  | .device reg => { s with devices := Config.deviceAfterRead s.fresh reg s.devices }
  | .cell _ | .rom _ | .globalCell _ | .globalRom _ | .openBus _ | .ppageReg | .gpageReg => s

/-- One byte written to a place. A write to ROM or to nothing is dropped, a device takes it by its write function (D3).
GPAGE keeps `GPAGE_BITS` bits (R58); where `GPAGE_BITS` is more than 8 the spec does not say how a byte fills the
register, and the upper bits become zero: DESIGN CHOICE, log entry 8, unsafe. -/
def State.putPlace (s : State) (p : Place) (v : Byte) : State :=
  match p with
  | .cell loc => { s with mem := memSet s.mem loc v }
  | .rom _ => s
  | .globalCell loc => { s with gmem := memSet s.gmem loc v }
  | .globalRom _ => s
  | .device reg => { s with devices := Config.deviceAfterWrite s.fresh reg s.devices v }
  | .openBus _ => s
  | .ppageReg => { s with ppage := v }
  | .gpageReg => { s with gpage := v.toNat % 2 ^ s.params.gpageBits }

/-- What `MemRead(addr, 1)` returns (R10). -/
def State.read8 (s : State) (addr : Word) : Byte := s.getPlace (s.place addr)

/-- The side effect of `MemRead(addr, 1)` (R93). -/
def State.touched8 (s : State) (addr : Word) : State := s.accessed (s.place addr)

/-- What `MemRead(addr, 2)` returns: high-order byte first, addresses modulo 2^16, the two bytes read together (R10,
R81, R82, R87). -/
def State.read16 (s : State) (addr : Word) : Word := wordOf (s.read8 addr) (s.read8 (addr + 1))

/-- The side effect of `MemRead(addr, 2)`: of its high-order byte first (R92, R93). -/
def State.touched16 (s : State) (addr : Word) : State :=
  (s.accessed (s.place addr)).accessed (s.place (addr + 1))

/-- What `MemRead(addr, 4)` returns: two 16-bit accesses, high word first (R10, R83). -/
def State.read32 (s : State) (addr : Word) : BitVec 32 := s.read16 addr ++ (s.touched16 addr).read16 (addr + 2)

/-- The side effect of `MemRead(addr, 4)`. -/
def State.touched32 (s : State) (addr : Word) : State := (s.touched16 addr).touched16 (addr + 2)

/-- `MemWrite(addr, 1, v)` (R10). -/
def State.write8 (s : State) (addr : Word) (v : Byte) : State := s.putPlace (s.place addr) v

/-- `MemWrite(addr, 2, v)`: one access of two bytes, high-order byte first, whatever the alignment (R10, R82, D11).
Where both bytes go is fixed before either is written. -/
def State.write16 (s : State) (addr : Word) (v : Word) : State :=
  (s.putPlace (s.place addr) v.high).putPlace (s.place (addr + 1)) v.low

/-- `MemWrite(addr, 4, v)`: two 16-bit accesses, high word first (R10, R523). -/
def State.write32 (s : State) (addr : Word) (v : BitVec 32) : State :=
  (s.write16 addr (v.extractLsb' 16 16)).write16 (addr + 2) (v.extractLsb' 0 16)

/-- What `GMemRead(ea, 1)` returns (R10, R84). -/
def State.globalRead8 (s : State) (ea : Word) : Byte := s.getPlace (s.globalPlaceAt ea 0)

/-- The side effect of `GMemRead(ea, 1)` (R93). -/
def State.globalTouched8 (s : State) (ea : Word) : State := s.accessed (s.globalPlaceAt ea 0)

/-- The side effect of `GMemRead(ea, 2)` (R93). -/
def State.globalTouched16 (s : State) (ea : Word) : State :=
  (s.accessed (s.globalPlaceAt ea 0)).accessed (s.globalPlaceAt ea 1)

/-- What `GMemRead(ea, 2)` returns: the second byte is at global address + 1 (R84). -/
def State.globalRead16 (s : State) (ea : Word) : Word :=
  wordOf (s.getPlace (s.globalPlaceAt ea 0)) (s.getPlace (s.globalPlaceAt ea 1))

/-- `GMemWrite(ea, 1, v)` (R10, R84). -/
def State.globalWrite8 (s : State) (ea : Word) (v : Byte) : State := s.putPlace (s.globalPlaceAt ea 0) v

/-- `GMemWrite(ea, 2, v)` (R10, R84). -/
def State.globalWrite16 (s : State) (ea : Word) (v : Word) : State :=
  (s.putPlace (s.globalPlaceAt ea 0) v.high).putPlace (s.globalPlaceAt ea 1) v.low

/-- What `MemRead(vector, 2)` of a vector fetch returns (R661). -/
def State.readVector (s : State) (vec : Word) : Word :=
  wordOf (s.getPlace (s.vectorPlace vec)) (s.getPlace (s.vectorPlace (vec + 1)))

/-- The side effect of a vector fetch (R93, R661). -/
def State.touchedVector (s : State) (vec : Word) : State :=
  (s.accessed (s.vectorPlace vec)).accessed (s.vectorPlace (vec + 1))

/-! ### The stack (R12) -/

/-- `Push8(v)`. -/
def State.push8 (s : State) (v : Byte) : State := ({ s with sp := s.sp - 1 }).write8 (s.sp - 1) v

/-- `Push16(v)`: the high byte at the lower address. -/
def State.push16 (s : State) (v : Word) : State := ({ s with sp := s.sp - 2 }).write16 (s.sp - 2) v

/-- What `Pull8()` returns. -/
def State.top8 (s : State) : Byte := s.read8 s.sp

/-- What `Pull16()` returns. -/
def State.top16 (s : State) : Word := s.read16 s.sp

/-- SP raised by the size of what was pulled. -/
def State.popped (s : State) (n : Word) : State := { s with sp := s.sp + n }

/-- The side effects of `Pull8()`: the read, and SP raised. -/
def State.pulled8 (s : State) : State := (s.touched8 s.sp).popped 1

/-- The side effects of `Pull16()`: the read, and SP raised. -/
def State.pulled16 (s : State) : State := (s.touched16 s.sp).popped 2

/-! ### Taking an exception, and returning from one -/

/-- The number of bytes of the stack frame: 9 on HCS12 (R669), 10 on HCS12X (R670). -/
def frameSize : Variant → Word
  | .hcs12 => 9#16
  | .hcs12x => 10#16

/-- The condition codes pushed: one byte on HCS12, CCRH:CCR on HCS12X (R668, C2). -/
def State.pushCcr (s : State) : State :=
  match s.params.variant with
  | .hcs12 => s.push8 s.ccr
  | .hcs12x => s.push16 s.ccrw

/-- The stacking half of an entry (R668): the return address, Y, X, B:A (B at the lower address) and the condition
codes from before the masks change. -/
def State.pushFrame (s : State) (rtn : Word) : State :=
  ((((s.push16 rtn).push16 s.y).push16 s.x).push16 (wordOf s.b s.a)).pushCcr

/-- The other half (R668, R679): the masks set, PC from the vector's content, Running; the flow has changed (R711). -/
def State.vectored (s : State) (target : Word) (isXirq : Bool) : State :=
  { s with ccr := maskedCcr s.ccr isXirq, pc := target, runState := .running, refilled := true }

/-- Taking an exception (R668): the vector is read before the pushes. -/
def State.enter (s : State) (vec : Word) (isXirq : Bool) (rtn : Word) : State :=
  ((s.touchedVector vec).pushFrame rtn).vectored (s.readVector vec) isXirq

/-- The vector of the unimplemented opcode trap (R661). -/
def trapVector : Word := 0xFFF8#16

/-- The vector of SWI (R661). -/
def swiVector : Word := 0xFFF6#16

/-- The vector of a request (R661). -/
def vectorOf : Request → Word
  | .por => 0xFFFE#16
  | .clockMonitor => 0xFFFC#16
  | .cop => 0xFFFA#16
  | .xirq => 0xFFF4#16
  | .irq => 0xFFF2#16
  | .device k => BitVec.ofNat 16 (0xFF00 + 2 * k.val)

/-- `raise UnimplementedOpcodeTrap` (R663): the return address is `PCnext`. -/
def State.trap (s : State) : State := s.enter trapVector false s.pc

/-- The condition codes pulled (R672): `WriteCCR` of one byte on HCS12, `WriteCCRW` of two on HCS12X. -/
def State.pullCcr (s : State) : State :=
  match s.params.variant with
  | .hcs12 => s.pulled8.writeCcr s.top8
  | .hcs12x => s.pulled16.writeCcrw s.top16

/-- B:A pulled from a frame: B is at the lower address (R669, R670). -/
def State.pullBA (s : State) : State := { s.pulled16 with b := s.top16.high, a := s.top16.low }

/-- X pulled. -/
def State.pullX (s : State) : State := { s.pulled16 with x := s.top16 }

/-- Y pulled. -/
def State.pullY (s : State) : State := { s.pulled16 with y := s.top16 }

/-- PC pulled; the flow has changed (R711). -/
def State.pullPc (s : State) : State := { s.pulled16 with pc := s.top16, refilled := true }

/-- Returning from an exception (R672): CCR, B:A, X, Y, PC pulled in frame order. -/
def State.returned (s : State) : State := s.pullCcr.pullBA.pullX.pullY.pullPc

/-! ### Recognition -/

/-- Whether a request is a reset (R660, R662). -/
def isResetRequest : Request → Bool
  | .por | .clockMonitor | .cop => true
  | .xirq | .irq | .device _ => false

/-- Whether a request is enabled: a reset always, XIRQ if X = 0, IRQ and the device requests if I = 0 (R667). -/
def State.enabled (s : State) : Request → Bool
  | .por | .clockMonitor | .cop => true
  | .xirq => !s.flag .x
  | .irq | .device _ => !s.flag .i

/-- Whether an asynchronous source of the platform (D10) is enabled. -/
def State.interruptible (s : State) (r : Request) : Bool :=
  s.params.irqSources.contains r && !isResetRequest r && s.enabled r

/-- The reset that is taken: power-on or external, then clock monitor, then COP (R667). -/
def State.nextReset (s : State) : Option Request :=
  [Request.por, Request.clockMonitor, Request.cop].find? fun r => s.pending.contains r

/-- The interrupt that is taken: of the pending enabled requests the first in the order of `IrqSources` (R667, D10). -/
def State.nextInterrupt (s : State) : Option Request :=
  s.params.irqSources.find? fun r => s.pending.contains r && s.interruptible r

/-! ### Variants -/

/-- The instructions that exist on HCS12X only: on HCS12 their opcodes raise the unimplemented opcode trap (R164). -/
def onHcs12x (s : State) (effect : State) : Result :=
  match s.params.variant with
  | .hcs12 => .next s.trap
  | .hcs12x => .next effect

/-! ### Reset -/

/-- A flag that `ResetValues` may give a value. -/
def resetFlag (k : Byte) (f : Flag) (v : Option Bool) : Byte :=
  match v with
  | none => k
  | some b => withFlag k f b

/-- CCR after a reset (R65, R700): S, X and I set, H, N, Z, V, C as `ResetValues` says. -/
def resetCcr (rv : ResetValues) (k : Byte) : Byte :=
  let k1 := resetFlag (resetFlag (resetFlag (resetFlag (resetFlag k .h rv.h) .n rv.n) .z rv.z) .v rv.v) .c rv.c
  withFlag (withFlag (withFlag k1 .s true) .x true) .i true

/-- The state elements that `ResetValues` gives (R65, D8); TMP1 to TMP3 may take any value where it gives none (D13).
-/
def State.withResetValues (s : State) (rv : ResetValues) : State :=
  { s with
    a := rv.a.getD s.a, b := rv.b.getD s.b, x := rv.x.getD s.x, y := rv.y.getD s.y, sp := rv.sp.getD s.sp
    ccr := resetCcr rv s.ccr, ccrh := rv.ccrh.getD s.ccrh, ppage := rv.ppage.getD s.ppage
    gpage := rv.gpage.getD s.gpage % 2 ^ s.params.gpageBits
    tmp1 := rv.tmp1.getD (Config.freeTmp1 s.fresh), tmp2 := rv.tmp2.getD (Config.freeTmp2 s.fresh)
    tmp3 := rv.tmp3.getD (Config.freeTmp3 s.fresh)
    mem := (rv.mem.map memOfCells).getD s.mem, gmem := (rv.gmem.map memOfCells).getD s.gmem }

/-- The reset sequence for the request `r` (R65, R700): the values of `ResetValues`, S, X and I set, PC from the
vector, Running, the request consumed, the instruction queue refilled; nothing is stacked. The spec does not say what a
reset does to the state of the platform's devices: `devices` stays as it is, but for the read of the vector. DESIGN
CHOICE, log entries 5 and 8, unsafe. -/
def State.takeReset (s : State) (r : Request) : State :=
  let t := s.withResetValues s.params.resetValues
  { t.touchedVector (vectorOf r) with
    pc := t.readVector (vectorOf r), runState := .running, pending := s.pending.filter (· ≠ r)
    queue := [], refilled := false, wavFrames := [], fresh := s.fresh + 1 }

end Sys2Proof.Machine
end

