-- ==== Sys2Proof/Machine/Operands.lean ====
section
/-! DEFINITION. The operand forms (R123 to R140, R146): effective addresses, the update of an auto-modified base
register, and the values of source operands. -/

namespace Sys2Proof.Machine

/-- `Base(r)`: the value of a base register; PC as base is `PCnext` (R131, R138). -/
def State.base (s : State) : IdxBase → Word
  | .x => s.x
  | .y => s.y
  | .sp => s.sp
  | .pc => s.pc

/-- The register an auto-modifying postbyte names. -/
def autoReg : IdxReg → Reg16
  | .x => .x
  | .y => .y
  | .sp => .sp

/-- The offset of an accumulator-offset form, unsigned (R136). -/
def State.accOffset (s : State) : IdxAcc → Word
  | .a => zext8 s.a
  | .b => zext8 s.b
  | .d => s.d

/-- The signed adjustment of an auto-modifying postbyte (R132): k + 1 for k = 0 … 7, k − 16 for k = 8 … 15. -/
def autoStep (k : BitVec 4) : Word :=
  if k.msb then k.signExtend 16 else k.setWidth 16 + 1

/-- The address of the pointer of an indirect form, and of the operand of every other form (R131 to R137). -/
def indexedAddress (xb : Xb) (s : State) : Word :=
  match xb with
  | .const5 base n => s.base base + n.signExtend 16
  | .auto r post k => if post then s.get16 (autoReg r) else s.get16 (autoReg r) + autoStep k
  | .const9 base n => s.base base + n.signExtend 16
  | .const16 base n => s.base base + n
  | .indirect16 base n => s.base base + n
  | .acc off base => s.base base + s.accOffset off
  | .indirectD base => s.base base + s.d

/-- The effective address of an indexed operand: through the pointer for the indirect forms (R135, R137). -/
def xbAddress (xb : Xb) (s : State) : Word :=
  if xb.isIndirect then s.read16 (indexedAddress xb s) else indexedAddress xb s

/-- The state after the postbyte is evaluated: an auto-modified base register has its new value (R132), the pointer of
an indirect form has been read (R92, R93). -/
def xbAfter (xb : Xb) (s : State) : State :=
  match xb with
  | .auto r _ k => s.set16 (autoReg r) (s.get16 (autoReg r) + autoStep k)
  | .indirect16 _ _ | .indirectD _ => s.touched16 (indexedAddress xb s)
  | .const5 _ _ | .const9 _ _ | .const16 _ _ | .acc _ _ => s

/-- The register a postbyte auto-modifies, if it does (R132, R140). -/
def autoModified : Xb → Option Reg16
  | .auto r _ _ => some (autoReg r)
  | .const5 _ _ | .const9 _ _ | .const16 _ _ | .indirect16 _ _ | .acc _ _ | .indirectD _ => none

/-- `EA()` as a value (R146). -/
def eaAddress (ea : Ea) (s : State) : Word :=
  match ea with
  | .dir dd => zext8 dd
  | .ext hhll => hhll
  | .idx xb => xbAddress xb s

/-- The side effect of `EA()` (R146). -/
def eaAfter (ea : Ea) (s : State) : State :=
  match ea with
  | .dir _ | .ext _ => s
  | .idx xb => xbAfter xb s

/-- The register `EA()` auto-modifies, if it does. -/
def eaModified : Ea → Option Reg16
  | .dir _ | .ext _ => none
  | .idx xb => autoModified xb

/-- The byte of memory that an operand names, read once its address is formed (R92, R146). -/
def memByte (ea : Ea) (s : State) : Byte := (eaAfter ea s).read8 (eaAddress ea s)

/-- The state once that byte has been read (R93). -/
def afterMemByte (ea : Ea) (s : State) : State := (eaAfter ea s).touched8 (eaAddress ea s)

/-- The word of memory that an operand names, read once its address is formed (R92, R146). -/
def memWord (ea : Ea) (s : State) : Word := (eaAfter ea s).read16 (eaAddress ea s)

/-- The state once that word has been read (R93). -/
def afterMemWord (ea : Ea) (s : State) : State := (eaAfter ea s).touched16 (eaAddress ea s)

/-- `Opr8()` as a value (R146). -/
def src8Value (src : Src8) (s : State) : Byte :=
  match src with
  | .imm ii => ii
  | .mem ea => memByte ea s

/-- The side effect of `Opr8()`. -/
def src8After (src : Src8) (s : State) : State :=
  match src with
  | .imm _ => s
  | .mem ea => afterMemByte ea s

/-- `Opr16()` as a value (R146). -/
def src16Value (src : Src16) (s : State) : Word :=
  match src with
  | .imm jjkk => jjkk
  | .mem ea => memWord ea s

/-- The side effect of `Opr16()`. -/
def src16After (src : Src16) (s : State) : State :=
  match src with
  | .imm _ => s
  | .mem ea => afterMemWord ea s

/-- The byte of global memory that an operand names (R84, R201). -/
def globalByte (ea : Ea) (s : State) : Byte := (eaAfter ea s).globalRead8 (eaAddress ea s)

/-- The state once that byte has been read. -/
def afterGlobalByte (ea : Ea) (s : State) : State := (eaAfter ea s).globalTouched8 (eaAddress ea s)

/-- The word of global memory that an operand names (R84, R201). -/
def globalWord (ea : Ea) (s : State) : Word := (eaAfter ea s).globalRead16 (eaAddress ea s)

/-- The state once that word has been read. -/
def afterGlobalWord (ea : Ea) (s : State) : State := (eaAfter ea s).globalTouched16 (eaAddress ea s)

/-- The value a store of a 16-bit register writes. Where the postbyte auto-modifies that same register, whether the
old or the new value is stored is not in the source: a free choice of the two (R140 point 3, U9, log entry 9). -/
def storedValue (r : Reg16) (ea : Ea) (s : State) : Word :=
  if eaModified ea = some r ∧ Config.storesOldBase s.fresh then s.get16 r else (eaAfter ea s).get16 r

/-- The value an LEA leaves in its destination: the effective address. Where the postbyte auto-modifies the
destination itself, the effective address or the updated base survives: a free choice of the two, which coincide for
a pre-modification (R140 point 4, U9, log entry 9). -/
def leaValue (r : Reg16) (xb : Xb) (s : State) : Word :=
  if autoModified xb = some r ∧ Config.leaKeepsAddress s.fresh = false then (xbAfter xb s).get16 r
  else xbAddress xb s

/-! ### Read-modify-write (R90): the operand is read, the result written to the same place, once -/

/-- A byte of memory replaced by `result` of it, with the condition codes `ccr` of it. -/
def modify8 (ea : Ea) (result : Byte → Byte) (ccr : Byte → Byte) (s : State) : State :=
  ((afterMemByte ea s).write8 (eaAddress ea s) (result (memByte ea s))).setCcr (ccr (memByte ea s))

/-- A word of memory replaced by `result` of it, with the condition codes `ccr` of it. -/
def modify16 (ea : Ea) (result : Word → Word) (ccr : Word → Byte) (s : State) : State :=
  ((afterMemWord ea s).write16 (eaAddress ea s) (result (memWord ea s))).setCcr (ccr (memWord ea s))

/-- An accumulator replaced by `result` of it, with the condition codes `ccr` of it. -/
def modifyReg8 (r : Reg8) (result : Byte → Byte) (ccr : Byte → Byte) (s : State) : State :=
  (s.set8 r (result (s.get8 r))).setCcr (ccr (s.get8 r))

/-- A 16-bit register replaced by `result` of it, with the condition codes `ccr` of it. -/
def modifyReg16 (r : Reg16) (result : Word → Word) (ccr : Word → Byte) (s : State) : State :=
  (s.set16 r (result (s.get16 r))).setCcr (ccr (s.get16 r))

/-- A byte of memory through an operation that defines N, Z, V and C. -/
def alu8 (ea : Ea) (op : Byte → Alu 8) (s : State) : State :=
  modify8 ea (fun m => (op m).r) (fun m => withAlu s.ccr (op m)) s

/-- A word of memory through an operation that defines N, Z, V and C. -/
def alu16 (ea : Ea) (op : Word → Alu 16) (s : State) : State :=
  modify16 ea (fun m => (op m).r) (fun m => withAlu s.ccr (op m)) s

/-- An accumulator through an operation that defines N, Z, V and C. -/
def aluReg8 (r : Reg8) (op : Byte → Alu 8) (s : State) : State :=
  modifyReg8 r (fun m => (op m).r) (fun m => withAlu s.ccr (op m)) s

/-- A 16-bit register through an operation that defines N, Z, V and C. -/
def aluReg16 (r : Reg16) (op : Word → Alu 16) (s : State) : State :=
  modifyReg16 r (fun m => (op m).r) (fun m => withAlu s.ccr (op m)) s

/-! ### Selection -/

/-- The larger of two unsigned values (R548). -/
def max8 (p q : Byte) : Byte := if p.toNat < q.toNat then q else p

/-- The smaller of two unsigned values (R548). -/
def min8 (p q : Byte) : Byte := if q.toNat < p.toNat then q else p

/-- The larger of two unsigned 16-bit values (R548). -/
def max16 (p q : Word) : Word := if p.toNat < q.toNat then q else p

/-- The smaller of two unsigned 16-bit values (R548). -/
def min16 (p q : Word) : Word := if q.toNat < p.toNat then q else p

end Sys2Proof.Machine
end

