-- ==== Sys2Proof/Machine/AddSub.lean ====
section
/-! DEFINITION. Addition, subtraction, decimal adjust, increment, decrement, negate (`42_add_subtract.md`). -/

namespace Sys2Proof.Machine

/-- The 8-bit addition template (R301): the left operand is read after the operand's effective address is formed. -/
def add8 (r : Reg8) (m : Byte) (cin : Bool) (t : State) : State :=
  let f := addAlu (t.get8 r) m cin
  (t.set8 r f.r).setCcr (withFlag (withAlu t.ccr f) .h (halfCarry (t.get8 r) m cin))

/-- ADDD (R302): H is not affected. -/
def add16 (r : Reg16) (m : Word) (t : State) : State :=
  let f := addAlu (t.get16 r) m false
  (t.set16 r f.r).setCcr (withAlu t.ccr f)

/-- ADDX and ADDY (R302): H is the free value `AddXH` (R308, D20). -/
def add16X (r : Reg16) (m : Word) (t : State) : State :=
  let f := addAlu (t.get16 r) m false
  (t.set16 r f.r).setCcr (withFlag (withAlu t.ccr f) .h (Config.addXH t.fresh))

/-- ADED, ADEX and ADEY (R302, R304): the carry goes in, Z under `ExtZMode`, H is the free value `AddXH` (R308). -/
def addCarry16X (r : Reg16) (m : Word) (t : State) : State :=
  let f := (addAlu (t.get16 r) m (t.flag .c)).withExtZ t.params.extZMode t.ccr
  (t.set16 r f.r).setCcr (withFlag (withAlu t.ccr f) .h (Config.addXH t.fresh))

/-- The 8-bit subtraction template (R303). -/
def sub8 (r : Reg8) (m : Byte) (bin : Bool) (t : State) : State :=
  let f := subAlu (t.get8 r) m bin
  (t.set8 r f.r).setCcr (withAlu t.ccr f)

/-- The 16-bit subtraction template (R303). -/
def sub16 (r : Reg16) (m : Word) (t : State) : State :=
  let f := subAlu (t.get16 r) m false
  (t.set16 r f.r).setCcr (withAlu t.ccr f)

/-- SBED, SBEX and SBEY (R303, R304): the borrow goes in, Z under `ExtZMode`. -/
def subBorrow16 (r : Reg16) (m : Word) (t : State) : State :=
  let f := (subAlu (t.get16 r) m (t.flag .c)).withExtZ t.params.extZMode t.ccr
  (t.set16 r f.r).setCcr (withAlu t.ccr f)

/-- The low-digit correction of DAA (R334). -/
def daaLow (s : State) : Nat :=
  if s.flag .h || decide (9 < s.a.toNat % 16) then 0x06 else 0

/-- Whether DAA applies the high-digit correction (R334). -/
def daaHigh (s : State) : Bool :=
  s.flag .c || decide (0x99 < s.a.toNat) || (decide (9 ≤ s.a.toNat / 16) && decide (9 < s.a.toNat % 16))

/-- Decimal adjust (R334): V is the free value `DaaV`. -/
def daa (s : State) : State :=
  let r : Byte := BitVec.ofNat 8 (s.a.toNat + daaLow s + if daaHigh s then 0x60 else 0)
  (s.set8 .a r).setCcr (withNZVC s.ccr r.msb (r == 0) (Config.daaV s.fresh) (s.flag .c || daaHigh s))

/-! ### Addition -/

/-- ABA (R310). -/
def execAba (s : State) : Result := .next (add8 .a s.b false s)

/-- ABX (R311). -/
def execAbx (s : State) : Result := .next (s.set16 .x (s.x + zext8 s.b))

/-- ABY (R312). -/
def execAby (s : State) : Result := .next (s.set16 .y (s.y + zext8 s.b))

/-- ADCA (R313). -/
def execAdca (src : Src8) (s : State) : Result := .next (add8 .a (src8Value src s) (s.flag .c) (src8After src s))

/-- ADCB (R314). -/
def execAdcb (src : Src8) (s : State) : Result := .next (add8 .b (src8Value src s) (s.flag .c) (src8After src s))

/-- ADDA (R315). -/
def execAdda (src : Src8) (s : State) : Result := .next (add8 .a (src8Value src s) false (src8After src s))

/-- ADDB (R316). -/
def execAddb (src : Src8) (s : State) : Result := .next (add8 .b (src8Value src s) false (src8After src s))

/-- ADDD (R317). -/
def execAddd (src : Src16) (s : State) : Result := .next (add16 .d (src16Value src s) (src16After src s))

/-- ADDX (HCS12X only; R318). -/
def execAddx (src : Src16) (s : State) : Result := onHcs12x s (add16X .x (src16Value src s) (src16After src s))

/-- ADDY (HCS12X only; R319). -/
def execAddy (src : Src16) (s : State) : Result := onHcs12x s (add16X .y (src16Value src s) (src16After src s))

/-- ADED (HCS12X only; R320). -/
def execAded (src : Src16) (s : State) : Result := onHcs12x s (addCarry16X .d (src16Value src s) (src16After src s))

/-- ADEX (HCS12X only; R321). -/
def execAdex (src : Src16) (s : State) : Result := onHcs12x s (addCarry16X .x (src16Value src s) (src16After src s))

/-- ADEY (HCS12X only; R322). -/
def execAdey (src : Src16) (s : State) : Result := onHcs12x s (addCarry16X .y (src16Value src s) (src16After src s))

/-! ### Subtraction -/

/-- SBA (R323). -/
def execSba (s : State) : Result := .next (sub8 .a s.b false s)

/-- SBCA (R324). -/
def execSbca (src : Src8) (s : State) : Result := .next (sub8 .a (src8Value src s) (s.flag .c) (src8After src s))

/-- SBCB (R325). -/
def execSbcb (src : Src8) (s : State) : Result := .next (sub8 .b (src8Value src s) (s.flag .c) (src8After src s))

/-- SBED (HCS12X only; R326). -/
def execSbed (src : Src16) (s : State) : Result := onHcs12x s (subBorrow16 .d (src16Value src s) (src16After src s))

/-- SBEX (HCS12X only; R327). -/
def execSbex (src : Src16) (s : State) : Result := onHcs12x s (subBorrow16 .x (src16Value src s) (src16After src s))

/-- SBEY (HCS12X only; R328). -/
def execSbey (src : Src16) (s : State) : Result := onHcs12x s (subBorrow16 .y (src16Value src s) (src16After src s))

/-- SUBA (R329). -/
def execSuba (src : Src8) (s : State) : Result := .next (sub8 .a (src8Value src s) false (src8After src s))

/-- SUBB (R330). -/
def execSubb (src : Src8) (s : State) : Result := .next (sub8 .b (src8Value src s) false (src8After src s))

/-- SUBD (R331). -/
def execSubd (src : Src16) (s : State) : Result := .next (sub16 .d (src16Value src s) (src16After src s))

/-- SUBX (HCS12X only; R332). -/
def execSubx (src : Src16) (s : State) : Result := onHcs12x s (sub16 .x (src16Value src s) (src16After src s))

/-- SUBY (HCS12X only; R333). -/
def execSuby (src : Src16) (s : State) : Result := onHcs12x s (sub16 .y (src16Value src s) (src16After src s))

/-! ### Decimal adjust -/

/-- DAA (R334). -/
def execDaa (s : State) : Result := .next (daa s)

/-! ### Increment, decrement, negate -/

/-- INC (R335). -/
def execInc (ea : Ea) (s : State) : Result := .next (modify8 ea (· + 1) (incCcr s.ccr) s)

/-- INCA (R336). -/
def execInca (s : State) : Result := .next (modifyReg8 .a (· + 1) (incCcr s.ccr) s)

/-- INCB (R337). -/
def execIncb (s : State) : Result := .next (modifyReg8 .b (· + 1) (incCcr s.ccr) s)

/-- INCW (HCS12X only; R338). -/
def execIncw (ea : Ea) (s : State) : Result := onHcs12x s (modify16 ea (· + 1) (incCcr s.ccr) s)

/-- INCX (HCS12X only; R339). -/
def execIncx (s : State) : Result := onHcs12x s (modifyReg16 .x (· + 1) (incCcr s.ccr) s)

/-- INCY (HCS12X only; R340). -/
def execIncy (s : State) : Result := onHcs12x s (modifyReg16 .y (· + 1) (incCcr s.ccr) s)

/-- INX (R341, only Z). -/
def execInx (s : State) : Result := .next (let r := s.x + 1; (s.set16 .x r).setCcr (withFlag s.ccr .z (r == 0)))

/-- INY (R342, only Z). -/
def execIny (s : State) : Result := .next (let r := s.y + 1; (s.set16 .y r).setCcr (withFlag s.ccr .z (r == 0)))

/-- INS (R343). -/
def execIns (s : State) : Result := .next (s.set16 .sp (s.sp + 1))

/-- DEC (R344). -/
def execDec (ea : Ea) (s : State) : Result := .next (modify8 ea (· - 1) (decCcr s.ccr) s)

/-- DECA (R345). -/
def execDeca (s : State) : Result := .next (modifyReg8 .a (· - 1) (decCcr s.ccr) s)

/-- DECB (R346). -/
def execDecb (s : State) : Result := .next (modifyReg8 .b (· - 1) (decCcr s.ccr) s)

/-- DECW (HCS12X only; R347). -/
def execDecw (ea : Ea) (s : State) : Result := onHcs12x s (modify16 ea (· - 1) (decCcr s.ccr) s)

/-- DECX (HCS12X only; R348). -/
def execDecx (s : State) : Result := onHcs12x s (modifyReg16 .x (· - 1) (decCcr s.ccr) s)

/-- DECY (HCS12X only; R349). -/
def execDecy (s : State) : Result := onHcs12x s (modifyReg16 .y (· - 1) (decCcr s.ccr) s)

/-- DEX (R350, only Z). -/
def execDex (s : State) : Result := .next (let r := s.x - 1; (s.set16 .x r).setCcr (withFlag s.ccr .z (r == 0)))

/-- DEY (R351, only Z). -/
def execDey (s : State) : Result := .next (let r := s.y - 1; (s.set16 .y r).setCcr (withFlag s.ccr .z (r == 0)))

/-- DES (R352). -/
def execDes (s : State) : Result := .next (s.set16 .sp (s.sp - 1))

/-- NEG (R353). -/
def execNeg (ea : Ea) (s : State) : Result := .next (alu8 ea (subAlu 0 · false) s)

/-- NEGA (R354). -/
def execNega (s : State) : Result := .next (aluReg8 .a (subAlu 0 · false) s)

/-- NEGB (R355). -/
def execNegb (s : State) : Result := .next (aluReg8 .b (subAlu 0 · false) s)

/-- NEGW (HCS12X only; R356). -/
def execNegw (ea : Ea) (s : State) : Result := onHcs12x s (alu16 ea (subAlu 0 · false) s)

/-- NEGX (HCS12X only; R357). -/
def execNegx (s : State) : Result := onHcs12x s (aluReg16 .x (subAlu 0 · false) s)

/-- NEGY (HCS12X only; R358). -/
def execNegy (s : State) : Result := onHcs12x s (aluReg16 .y (subAlu 0 · false) s)

end Sys2Proof.Machine
end

