-- ==== Sys2Proof/Machine/BranchJump.lean ====
section
/-! DEFINITION. Branches, loop primitives, jumps, calls and returns (`48_branch_jump.md`). PC holds `PCnext`. -/

namespace Sys2Proof.Machine

/-- The target of a short branch (R571). -/
def relTarget8 (rr : Byte) (s : State) : Word := s.pc + sext8 rr

/-- The target of a long branch (R572). -/
def relTarget16 (qqrr : Word) (s : State) : Word := s.pc + qqrr

/-- The target of a loop primitive (R572): the 9-bit offset sign-extended. -/
def relTarget9 (off : BitVec 9) (s : State) : Word := s.pc + off.signExtend 16

/-- PC set by a change of flow, which refills the instruction queue, also where the target is `PCnext` (R91, R711). -/
def State.jump (s : State) (target : Word) : State := { s with pc := target, refilled := true }

/-- A branch: PC takes the target if the condition holds, and stays `PCnext` if not (R570). -/
def branchIf (cond : Bool) (target : Word) (s : State) : State := if cond then s.jump target else s

/-- The signed "less than" condition, N xor V (R570). -/
def lessSigned (s : State) : Bool := s.flag .n != s.flag .v

/-- The counter of a loop primitive changed by `n`, modulo its width (R612 to R617); no flag. -/
def counterAdd (r : LoopReg) (n : Int) (s : State) : State :=
  match r with
  | .a => s.set8 .a (s.a + BitVec.ofInt 8 n)
  | .b => s.set8 .b (s.b + BitVec.ofInt 8 n)
  | .d => s.set16 .d (s.d + BitVec.ofInt 16 n)
  | .x => s.set16 .x (s.x + BitVec.ofInt 16 n)
  | .y => s.set16 .y (s.y + BitVec.ofInt 16 n)
  | .sp => s.set16 .sp (s.sp + BitVec.ofInt 16 n)

/-- Whether the counter of a loop primitive is zero. -/
def counterZero (r : LoopReg) (s : State) : Bool :=
  match r with
  | .a => s.a == 0#8
  | .b => s.b == 0#8
  | .d => s.d == 0#16
  | .x => s.x == 0#16
  | .y => s.y == 0#16
  | .sp => s.sp == 0#16

/-- The pushes and the jump of CALL (R620): the return address, then PPAGE. -/
def callTo (page : Byte) (target : Word) (s : State) : State :=
  let t := s.push16 s.pc
  { (t.push8 t.ppage).jump target with ppage := page }

/-- CALL (R620): in the indirect forms the pointer is a three-byte record of address and page. -/
def call (op : CallOp) (s : State) : State :=
  match op with
  | .direct ea pg => callTo pg (eaAddress ea s) (eaAfter ea s)
  | .indirect xb =>
    let p := indexedAddress xb s
    let u := s.touched16 p
    callTo (u.read8 (p + 2)) (s.read16 p) (u.touched8 (p + 2))

/-- RTC (R621): the page, then the return address. -/
def rtc (s : State) : State :=
  let t := { s.pulled8 with ppage := s.top8 }
  t.pulled16.jump t.top16

/-! ### Short branches -/

/-- BCC (R574). -/
def execBcc (rr : Byte) (s : State) : Result := .next (branchIf (!s.flag .c) (relTarget8 rr s) s)

/-- BCS (R575). -/
def execBcs (rr : Byte) (s : State) : Result := .next (branchIf (s.flag .c) (relTarget8 rr s) s)

/-- BEQ (R576). -/
def execBeq (rr : Byte) (s : State) : Result := .next (branchIf (s.flag .z) (relTarget8 rr s) s)

/-- BGE (R577). -/
def execBge (rr : Byte) (s : State) : Result := .next (branchIf (!lessSigned s) (relTarget8 rr s) s)

/-- BGT (R578). -/
def execBgt (rr : Byte) (s : State) : Result := .next (branchIf (!(s.flag .z || lessSigned s)) (relTarget8 rr s) s)

/-- BHI (R579). -/
def execBhi (rr : Byte) (s : State) : Result := .next (branchIf (!(s.flag .c || s.flag .z)) (relTarget8 rr s) s)

/-- BHS (R580). -/
def execBhs (rr : Byte) (s : State) : Result := .next (branchIf (!s.flag .c) (relTarget8 rr s) s)

/-- BLE (R581). -/
def execBle (rr : Byte) (s : State) : Result := .next (branchIf (s.flag .z || lessSigned s) (relTarget8 rr s) s)

/-- BLO (R582). -/
def execBlo (rr : Byte) (s : State) : Result := .next (branchIf (s.flag .c) (relTarget8 rr s) s)

/-- BLS (R583). -/
def execBls (rr : Byte) (s : State) : Result := .next (branchIf (s.flag .c || s.flag .z) (relTarget8 rr s) s)

/-- BLT (R584). -/
def execBlt (rr : Byte) (s : State) : Result := .next (branchIf (lessSigned s) (relTarget8 rr s) s)

/-- BMI (R585). -/
def execBmi (rr : Byte) (s : State) : Result := .next (branchIf (s.flag .n) (relTarget8 rr s) s)

/-- BNE (R586). -/
def execBne (rr : Byte) (s : State) : Result := .next (branchIf (!s.flag .z) (relTarget8 rr s) s)

/-- BPL (R587). -/
def execBpl (rr : Byte) (s : State) : Result := .next (branchIf (!s.flag .n) (relTarget8 rr s) s)

/-- BRA (R588). -/
def execBra (rr : Byte) (s : State) : Result := .next (branchIf (true) (relTarget8 rr s) s)

/-- BRN (R589). -/
def execBrn (rr : Byte) (s : State) : Result := .next (branchIf (false) (relTarget8 rr s) s)

/-- BVC (R590). -/
def execBvc (rr : Byte) (s : State) : Result := .next (branchIf (!s.flag .v) (relTarget8 rr s) s)

/-- BVS (R591). -/
def execBvs (rr : Byte) (s : State) : Result := .next (branchIf (s.flag .v) (relTarget8 rr s) s)

/-! ### Long branches -/

/-- LBCC (R592). -/
def execLbcc (qqrr : Word) (s : State) : Result := .next (branchIf (!s.flag .c) (relTarget16 qqrr s) s)

/-- LBCS (R593). -/
def execLbcs (qqrr : Word) (s : State) : Result := .next (branchIf (s.flag .c) (relTarget16 qqrr s) s)

/-- LBEQ (R594). -/
def execLbeq (qqrr : Word) (s : State) : Result := .next (branchIf (s.flag .z) (relTarget16 qqrr s) s)

/-- LBGE (R595). -/
def execLbge (qqrr : Word) (s : State) : Result := .next (branchIf (!lessSigned s) (relTarget16 qqrr s) s)

/-- LBGT (R596). -/
def execLbgt (qqrr : Word) (s : State) : Result :=
  .next (branchIf (!(s.flag .z || lessSigned s)) (relTarget16 qqrr s) s)

/-- LBHI (R597). -/
def execLbhi (qqrr : Word) (s : State) : Result := .next (branchIf (!(s.flag .c || s.flag .z)) (relTarget16 qqrr s) s)

/-- LBHS (R598). -/
def execLbhs (qqrr : Word) (s : State) : Result := .next (branchIf (!s.flag .c) (relTarget16 qqrr s) s)

/-- LBLE (R599). -/
def execLble (qqrr : Word) (s : State) : Result := .next (branchIf (s.flag .z || lessSigned s) (relTarget16 qqrr s) s)

/-- LBLO (R600). -/
def execLblo (qqrr : Word) (s : State) : Result := .next (branchIf (s.flag .c) (relTarget16 qqrr s) s)

/-- LBLS (R601). -/
def execLbls (qqrr : Word) (s : State) : Result := .next (branchIf (s.flag .c || s.flag .z) (relTarget16 qqrr s) s)

/-- LBLT (R602). -/
def execLblt (qqrr : Word) (s : State) : Result := .next (branchIf (lessSigned s) (relTarget16 qqrr s) s)

/-- LBMI (R603). -/
def execLbmi (qqrr : Word) (s : State) : Result := .next (branchIf (s.flag .n) (relTarget16 qqrr s) s)

/-- LBNE (R604). -/
def execLbne (qqrr : Word) (s : State) : Result := .next (branchIf (!s.flag .z) (relTarget16 qqrr s) s)

/-- LBPL (R605). -/
def execLbpl (qqrr : Word) (s : State) : Result := .next (branchIf (!s.flag .n) (relTarget16 qqrr s) s)

/-- LBRA (R606). -/
def execLbra (qqrr : Word) (s : State) : Result := .next (branchIf (true) (relTarget16 qqrr s) s)

/-- LBRN (R607). -/
def execLbrn (qqrr : Word) (s : State) : Result := .next (branchIf (false) (relTarget16 qqrr s) s)

/-- LBVC (R608). -/
def execLbvc (qqrr : Word) (s : State) : Result := .next (branchIf (!s.flag .v) (relTarget16 qqrr s) s)

/-- LBVS (R609). -/
def execLbvs (qqrr : Word) (s : State) : Result := .next (branchIf (s.flag .v) (relTarget16 qqrr s) s)

/-! ### Bit-conditional branches -/

/-- BRCLR (R610). -/
def execBrclr (ea : Ea) (mm : Byte) (rr : Byte) (s : State) : Result :=
  .next (branchIf (memByte ea s &&& mm == 0) (relTarget8 rr s) (afterMemByte ea s))

/-- BRSET (R611). -/
def execBrset (ea : Ea) (mm : Byte) (rr : Byte) (s : State) : Result :=
  .next (branchIf (~~~ memByte ea s &&& mm == 0) (relTarget8 rr s) (afterMemByte ea s))

/-! ### Loop primitives -/

/-- DBEQ (R612). -/
def execDbeq (r : LoopReg) (off : BitVec 9) (s : State) : Result :=
  .next (let t := counterAdd r (-1) s; branchIf (counterZero r t) (relTarget9 off s) t)

/-- DBNE (R613). -/
def execDbne (r : LoopReg) (off : BitVec 9) (s : State) : Result :=
  .next (let t := counterAdd r (-1) s; branchIf (!counterZero r t) (relTarget9 off s) t)

/-- IBEQ (R614). -/
def execIbeq (r : LoopReg) (off : BitVec 9) (s : State) : Result :=
  .next (let t := counterAdd r 1 s; branchIf (counterZero r t) (relTarget9 off s) t)

/-- IBNE (R615). -/
def execIbne (r : LoopReg) (off : BitVec 9) (s : State) : Result :=
  .next (let t := counterAdd r 1 s; branchIf (!counterZero r t) (relTarget9 off s) t)

/-- TBEQ (R616). -/
def execTbeq (r : LoopReg) (off : BitVec 9) (s : State) : Result :=
  .next (let t := counterAdd r 0 s; branchIf (counterZero r t) (relTarget9 off s) t)

/-- TBNE (R617). -/
def execTbne (r : LoopReg) (off : BitVec 9) (s : State) : Result :=
  .next (let t := counterAdd r 0 s; branchIf (!counterZero r t) (relTarget9 off s) t)

/-! ### Calls, jumps and returns -/

/-- BSR (R618). -/
def execBsr (rr : Byte) (s : State) : Result := .next ((s.push16 s.pc).jump (relTarget8 rr s))

/-- JSR (R619). -/
def execJsr (ea : Ea) (s : State) : Result := .next (((eaAfter ea s).push16 s.pc).jump (eaAddress ea s))

/-- CALL (R620). -/
def execCall (op : CallOp) (s : State) : Result := .next (call op s)

/-- RTC (R621). -/
def execRtc (s : State) : Result := .next (rtc s)

/-- RTS (R622). -/
def execRts (s : State) : Result := .next (s.pulled16.jump s.top16)

/-- JMP (R623). -/
def execJmp (ea : Ea) (s : State) : Result := .next ((eaAfter ea s).jump (eaAddress ea s))

end Sys2Proof.Machine
end

