-- ==== Sys2Proof/Machine/CompareTest.lean ====
section
/-! DEFINITION. Compare, compare with borrow, test, bit test (`43_compare_test.md`). -/

namespace Sys2Proof.Machine

/-- The compare template (R381): register minus operand, the difference discarded. -/
def compare {w : Nat} (a m : BitVec w) (bin : Bool) (t : State) : State := t.setCcr (withAlu t.ccr (subAlu a m bin))

/-- CPED, CPES, CPEX and CPEY (R381, R304): the borrow goes in, Z under `ExtZMode`. -/
def compareBorrow (a m : Word) (t : State) : State :=
  t.setCcr (withAlu t.ccr ((subAlu a m (t.flag .c)).withExtZ t.params.extZMode t.ccr))

/-- CBA (R382). -/
def execCba (s : State) : Result := .next (compare s.a s.b false s)

/-- CMPA (R383). -/
def execCmpa (src : Src8) (s : State) : Result :=
  .next (let t := src8After src s; compare t.a (src8Value src s) false t)

/-- CMPB (R384). -/
def execCmpb (src : Src8) (s : State) : Result :=
  .next (let t := src8After src s; compare t.b (src8Value src s) false t)

/-- CPD (R385). -/
def execCpd (src : Src16) (s : State) : Result :=
  .next (let t := src16After src s; compare t.d (src16Value src s) false t)

/-- CPS (R386). -/
def execCps (src : Src16) (s : State) : Result :=
  .next (let t := src16After src s; compare t.sp (src16Value src s) false t)

/-- CPX (R387). -/
def execCpx (src : Src16) (s : State) : Result :=
  .next (let t := src16After src s; compare t.x (src16Value src s) false t)

/-- CPY (R388). -/
def execCpy (src : Src16) (s : State) : Result :=
  .next (let t := src16After src s; compare t.y (src16Value src s) false t)

/-- CPED (HCS12X only; R389). -/
def execCped (src : Src16) (s : State) : Result :=
  onHcs12x s (let t := src16After src s; compareBorrow t.d (src16Value src s) t)

/-- CPES (HCS12X only; R390). -/
def execCpes (src : Src16) (s : State) : Result :=
  onHcs12x s (let t := src16After src s; compareBorrow t.sp (src16Value src s) t)

/-- CPEX (HCS12X only; R391). -/
def execCpex (src : Src16) (s : State) : Result :=
  onHcs12x s (let t := src16After src s; compareBorrow t.x (src16Value src s) t)

/-- CPEY (HCS12X only; R392). -/
def execCpey (src : Src16) (s : State) : Result :=
  onHcs12x s (let t := src16After src s; compareBorrow t.y (src16Value src s) t)

/-- TST (R393). -/
def execTst (ea : Ea) (s : State) : Result := .next ((afterMemByte ea s).setCcr (testCcr s.ccr (memByte ea s)))

/-- TSTA (R394). -/
def execTsta (s : State) : Result := .next (s.setCcr (testCcr s.ccr s.a))

/-- TSTB (R395). -/
def execTstb (s : State) : Result := .next (s.setCcr (testCcr s.ccr s.b))

/-- TSTW (HCS12X only; R396). -/
def execTstw (ea : Ea) (s : State) : Result :=
  onHcs12x s ((afterMemWord ea s).setCcr (testCcr s.ccr (memWord ea s)))

/-- TSTX (HCS12X only; R397). -/
def execTstx (s : State) : Result := onHcs12x s (s.setCcr (testCcr s.ccr s.x))

/-- TSTY (HCS12X only; R398). -/
def execTsty (s : State) : Result := onHcs12x s (s.setCcr (testCcr s.ccr s.y))

/-- BITA (R399). -/
def execBita (src : Src8) (s : State) : Result :=
  .next (let t := src8After src s; t.setCcr (logicCcr t.ccr (t.a &&& src8Value src s)))

/-- BITB (R400). -/
def execBitb (src : Src8) (s : State) : Result :=
  .next (let t := src8After src s; t.setCcr (logicCcr t.ccr (t.b &&& src8Value src s)))

/-- BITX (HCS12X only; R401). -/
def execBitx (src : Src16) (s : State) : Result :=
  onHcs12x s (let t := src16After src s; t.setCcr (logicCcr t.ccr (t.x &&& src16Value src s)))

/-- BITY (HCS12X only; R402). -/
def execBity (src : Src16) (s : State) : Result :=
  onHcs12x s (let t := src16After src s; t.setCcr (logicCcr t.ccr (t.y &&& src16Value src s)))

end Sys2Proof.Machine
end

