-- ==== Sys2Proof/Machine/Fuzzy.lean ====
section
/-! DEFINITION. The fuzzy-logic instructions (`47_minmax_table_fuzzy.md` section 3). -/

namespace Sys2Proof.Machine

/-- One side of the trapezoid of MEM: the distance times the slope; the slope $00 is a vertical edge (R562, U11). -/
def membershipSide (distance : Nat) (slope : Byte) : Nat :=
  if slope = 0#8 then 0xFF else distance * slope.toNat

/-- The grade of MEM (R562). -/
def membershipGrade (a p1 p2 s1 s2 : Byte) : Byte :=
  if a.toNat < p1.toNat ∨ p2.toNat < a.toNat then 0#8
  else
    BitVec.ofNat 8
      (min (min (membershipSide (a.toNat - p1.toNat) s1) (membershipSide (p2.toNat - a.toNat) s2)) 0xFF)

/-- H, N, Z, V and C all free (R560). -/
def havocCcr (k : Byte) (fresh : Nat) : Byte :=
  withHNZVC k (Config.freeH fresh) (Config.freeN fresh) (Config.freeZ fresh) (Config.freeV fresh) (Config.freeC fresh)

/-- MEM (R562): the four descriptor bytes are read as two words. -/
def fuzzyMem (s : State) : State :=
  let points := s.read16 s.x
  let slopes := (s.touched16 s.x).read16 (s.x + 2)
  let g := membershipGrade s.a points.high points.low slopes.high slopes.low
  let u := (s.touched16 s.x).touched16 (s.x + 2)
  ({ u.write8 s.y g with x := s.x + 4, y := s.y + 1 }).setCcr (havocCcr s.ccr s.fresh)

/-- The number of passes of REV or REVW that one step runs when no comma stops it sooner. An instruction that is not
at its end then goes on at the next step, as after any comma (R675). DESIGN CHOICE: the spec gives no limit (log entry
15). -/
def passLimit : Nat := 1024

/-- The number of passes after which an arriving request stops the loop: a reset, or an interrupt that is enabled
(R662, R667, R675). -/
def State.passesToArrival (s : State) : Option Nat :=
  match s.arrival with
  | none => none
  | some (k, r) => if isResetRequest r || s.interruptible r then some (k + 1) else none

/-- A request that arrived in mid-execution is pending from then on (R666). -/
def State.arrived (s : State) : State :=
  match s.arrival with
  | none => s
  | some (_, r) => { s with pending := s.pending ++ [r], arrival := none }

/-- Passes of a loop until one reports the end or the count is used up; reports whether the end was reached. -/
def runPasses (pass : State → State × Bool) : Nat → State → State × Bool
  | 0, s => (s, false)
  | n + 1, s => if (pass s).2 then pass s else runPasses pass n (pass s).1

/-- Phase bit V turned over (R563, R564). -/
def State.turnPhase (s : State) : State := s.setCcr (withFlag s.ccr .v (!s.flag .v))

/-- The rule input at an address taken into the running minimum (R563, R564). -/
def ruleInput (addr : Word) (s : State) : State := (s.touched8 addr).set8 .a (min8 s.a (s.read8 addr))

/-- The rule output at an address raised to the running minimum; always written (R563, R564, R93). -/
def ruleOutput (addr : Word) (s : State) : State := (s.touched8 addr).write8 addr (max8 s.a (s.read8 addr))

/-- One element of the list of REV (R563); `true` at the end mark $FF. -/
def revPass (s : State) : State × Bool :=
  let e := s.read8 s.x
  let t := { s.touched8 s.x with x := s.x + 1, fresh := s.fresh + 1 }
  if e = 0xFF#8 then (t, true)
  else if e = 0xFE#8 then (if s.flag .v then (t.set8 .a 0xFF#8).turnPhase else t.turnPhase, false)
  else if s.flag .v then (ruleOutput (s.y + zext8 e) t, false)
  else (ruleInput (s.y + zext8 e) t, false)

/-- The weighting of REVW at the end of a rule's inputs, if C selects it (R564, U13). -/
def weightRule (s : State) : State :=
  if s.flag .c then
    { s.touched8 s.y with
      a := BitVec.ofNat 8 (s.a.toNat * ((s.read8 s.y).toNat + 1) / 256)
      y := s.y + 1 }
  else s

/-- One element of the list of REVW (R564); `true` at the end mark $FFFF. -/
def revwPass (s : State) : State × Bool :=
  let e := s.read16 s.x
  let t := { s.touched16 s.x with x := s.x + 2, fresh := s.fresh + 1 }
  if e = 0xFFFF#16 then (t, true)
  else if e = 0xFFFE#16 then (if s.flag .v then (t.set8 .a 0xFF#8).turnPhase else (weightRule t).turnPhase, false)
  else if s.flag .v then (ruleOutput e t, false)
  else (ruleInput e t, false)

/-- A rule evaluation run to its end, or to the comma that stops it: then PC goes back to the two bytes of the
instruction, which a later step re-executes (R675). -/
def evaluateRules (pass : State → State × Bool) (s : State) : State :=
  let p := runPasses pass (min (s.passesToArrival.getD passLimit) passLimit) s.arrived
  if p.2 then p.1 else { p.1 with pc := s.pc - 2 }

/-- H, N and Z free (R560). -/
def havocHNZ (t : State) : State :=
  t.setCcr (withNZ (withFlag t.ccr .h (Config.freeH t.fresh)) (Config.freeN t.fresh) (Config.freeZ t.fresh))

/-- REV (R563): H, N, Z, C are free, V is the phase. -/
def rev (s : State) : State :=
  let t := havocHNZ (evaluateRules revPass s)
  t.setCcr (withFlag t.ccr .c (Config.freeC t.fresh))

/-- REVW (R564): H, N, Z are free, V is the phase, C stays. -/
def revw (s : State) : State := havocHNZ (evaluateRules revwPass s)

/-- The loop variables of WAV (R565). -/
structure WavLoop where
  x : Word
  y : Word
  count : Byte
  weighted : Nat
  weights : Nat
  deriving DecidableEq, Repr

/-- One element of WAV (R565): its value is read, then its weight. -/
def wavPass (p : State × WavLoop) : State × WavLoop :=
  let s := p.1
  let w := p.2
  let u := s.touched8 w.x
  (u.touched8 w.y,
    { x := w.x + 1
      y := w.y + 1
      count := w.count - 1
      weighted := (w.weighted + (s.read8 w.x).toNat * (u.read8 w.y).toNat) % 2 ^ 32
      weights := (w.weights + (u.read8 w.y).toNat) % 2 ^ 16 })

/-- Elements of WAV until the count is zero or the passes are used up. -/
def wavPasses : Nat → State × WavLoop → State × WavLoop
  | 0, p => p
  | n + 1, p => if (wavPass p).2.count = 0#8 then wavPass p else wavPasses n (wavPass p)

/-- The normal end of WAV (R565): the sums in Y:D and X, Z set, H, N, V, C free. -/
def wavFinished (w : WavLoop) (s : State) : State :=
  let sum : BitVec 32 := BitVec.ofNat 32 w.weighted
  (({ s with y := sum.extractLsb' 16 16, x := BitVec.ofNat 16 w.weights }).setD (sum.extractLsb' 0 16)).setCcr
    (withFlag (havocCcr s.ccr s.fresh) .z true)

/-- WAV stopped at a comma (R566, R675): the pointers and the count advanced, three words with no known content pushed,
PC at the byte $3C, and the record of the sums (D9). The spec gives the flags of the end of WAV, Z = 1 there and H, N,
V, C undefined (R565), and none for the frame of a WAV stopped at a comma: H, N, Z, V and C are free here, S, X and I
stay. DESIGN CHOICE, log entry 16, safe. -/
def wavStopped (w : WavLoop) (s : State) : State :=
  let w0 := Config.wavWord s.fresh 0
  let w1 := Config.wavWord s.fresh 1
  let w2 := Config.wavWord s.fresh 2
  let t := (((({ s with x := w.x, y := w.y, b := w.count, pc := s.pc - 1 }).push16 w2).push16 w1).push16 w0).setCcr
    (havocCcr s.ccr s.fresh)
  { t with wavFrames := ⟨t.sp, w0, w1, w2, w.weighted, w.weights⟩ :: s.wavFrames }

/-- The loop of WAV from given loop variables to its end or to the comma that stops it. The pseudocode of R565 has a
comma after the last element too, before its test `until n = 0`; here a request that arrives there does not stop the
loop, which finishes, and the request is pending then. DESIGN CHOICE, log entry 14, safe (R675, D9: a request may wait
for the end). -/
def wavFrom (w : WavLoop) (s : State) : State :=
  let p := wavPasses (s.passesToArrival.getD 256) (s, w)
  if p.2.count = 0#8 then wavFinished p.2 p.1.arrived else wavStopped p.2 p.1.arrived

/-- The sums of WAV where the spec leaves them open (U14): Y, D, X and the flags are free. -/
def wavOpen (s : State) : State :=
  (({ s.arrived with y := Config.freeY s.fresh, x := Config.freeX s.fresh }).setD
    (Config.freeD s.fresh)).setCcr (havocCcr s.ccr s.fresh)

/-- WAV (R565); the result for B = 0 is open (U14). -/
def wav (s : State) : State :=
  if s.b = 0#8 then wavOpen s else wavFrom ⟨s.x, s.y, s.b, 0, 0⟩ s

/-- Whether a record is that of the three words on the top of the stack (D9). -/
def State.matchesFrame (s : State) (f : WavFrame) : Bool :=
  f.sp == s.sp && f.word0 == s.top16 && f.word1 == s.pulled16.top16 && f.word2 == s.pulled16.pulled16.top16

/-- The three words pulled. -/
def State.pulledFrame (s : State) : State := s.pulled16.pulled16.pulled16

/-- wavr (R566): the three words are pulled, the sums they stand for restored, and the loop goes on; without such a
record, or with B = 0, the results are open (U14). -/
def resumeWav (s : State) : State :=
  match s.wavFrames.find? s.matchesFrame with
  | none => wavOpen s.pulledFrame
  | some f =>
    if s.b = 0#8 then wavOpen s.pulledFrame
    else wavFrom ⟨s.x, s.y, s.b, f.weighted, f.weights⟩ { s.pulledFrame with wavFrames := s.wavFrames.erase f }

/-- MEM (R562). -/
def execMem (s : State) : Result := .next (fuzzyMem s)

/-- REV (R563). -/
def execRev (s : State) : Result := .next (rev s)

/-- REVW (R564). -/
def execRevw (s : State) : Result := .next (revw s)

/-- WAV (R565). -/
def execWav (s : State) : Result := .next (wav s)

/-- wavr (R566). -/
def execWavr (s : State) : Result := .next (resumeWav s)

end Sys2Proof.Machine
end

