-- ==== Sys2Proof/Machine/LoadStore.lean ====
section
/-! DEFINITION. Loads, stores, global loads and stores, load effective address, clears, pushes and pulls
(`40_load_store.md`). -/

namespace Sys2Proof.Machine

/-- The load template (R200): the register takes the value, N and Z follow it, V is cleared. A load into the register
the postbyte auto-modified overwrites the update (R140 point 1). -/
def load8 (r : Reg8) (v : Byte) (t : State) : State := (t.set8 r v).setCcr (logicCcr t.ccr v)

/-- The load template at 16 bits (R200). -/
def load16 (r : Reg16) (v : Word) (t : State) : State := (t.set16 r v).setCcr (logicCcr t.ccr v)

/-- The store template (R200). -/
def store8 (r : Reg8) (ea : Ea) (s : State) : State :=
  ((eaAfter ea s).write8 (eaAddress ea s) (s.get8 r)).setCcr (logicCcr s.ccr (s.get8 r))

/-- The store template at 16 bits (R200). -/
def store16 (r : Reg16) (ea : Ea) (s : State) : State :=
  ((eaAfter ea s).write16 (eaAddress ea s) (storedValue r ea s)).setCcr (logicCcr s.ccr (storedValue r ea s))

/-- The store template into global memory (R201): the effective address is formed as for a logical store. -/
def globalStore8 (r : Reg8) (ea : Ea) (s : State) : State :=
  ((eaAfter ea s).globalWrite8 (eaAddress ea s) (s.get8 r)).setCcr (logicCcr s.ccr (s.get8 r))

/-- The store template into global memory at 16 bits (R201). -/
def globalStore16 (r : Reg16) (ea : Ea) (s : State) : State :=
  ((eaAfter ea s).globalWrite16 (eaAddress ea s) (storedValue r ea s)).setCcr (logicCcr s.ccr (storedValue r ea s))

/-- The LEA template (R226 to R228): the base update of the postbyte, then the destination; no flag. -/
def lea (r : Reg16) (xb : Xb) (s : State) : State := (xbAfter xb s).set16 r (leaValue r xb s)

/-! ### Loads and stores -/

/-- LDAA (R202). -/
def execLdaa (src : Src8) (s : State) : Result := .next (load8 .a (src8Value src s) (src8After src s))

/-- LDAB (R203). -/
def execLdab (src : Src8) (s : State) : Result := .next (load8 .b (src8Value src s) (src8After src s))

/-- LDD (R204). -/
def execLdd (src : Src16) (s : State) : Result := .next (load16 .d (src16Value src s) (src16After src s))

/-- LDS (R205). -/
def execLds (src : Src16) (s : State) : Result := .next (load16 .sp (src16Value src s) (src16After src s))

/-- LDX (R206). -/
def execLdx (src : Src16) (s : State) : Result := .next (load16 .x (src16Value src s) (src16After src s))

/-- LDY (R207). -/
def execLdy (src : Src16) (s : State) : Result := .next (load16 .y (src16Value src s) (src16After src s))

/-- STAA (R208). -/
def execStaa (ea : Ea) (s : State) : Result := .next (store8 .a ea s)

/-- STAB (R209). -/
def execStab (ea : Ea) (s : State) : Result := .next (store8 .b ea s)

/-- STD (R210). -/
def execStd (ea : Ea) (s : State) : Result := .next (store16 .d ea s)

/-- STS (R211). -/
def execSts (ea : Ea) (s : State) : Result := .next (store16 .sp ea s)

/-- STX (R212). -/
def execStx (ea : Ea) (s : State) : Result := .next (store16 .x ea s)

/-- STY (R213). -/
def execSty (ea : Ea) (s : State) : Result := .next (store16 .y ea s)

/-! ### Global loads and stores -/

/-- GLDAA (HCS12X only; R214). -/
def execGldaa (ea : Ea) (s : State) : Result := onHcs12x s (load8 .a (globalByte ea s) (afterGlobalByte ea s))

/-- GLDAB (HCS12X only; R215). -/
def execGldab (ea : Ea) (s : State) : Result := onHcs12x s (load8 .b (globalByte ea s) (afterGlobalByte ea s))

/-- GLDD (HCS12X only; R216). -/
def execGldd (ea : Ea) (s : State) : Result := onHcs12x s (load16 .d (globalWord ea s) (afterGlobalWord ea s))

/-- GLDS (HCS12X only; R217). -/
def execGlds (ea : Ea) (s : State) : Result :=
  onHcs12x s (load16 .sp (globalWord ea s) (afterGlobalWord ea s))

/-- GLDX (HCS12X only; R218). -/
def execGldx (ea : Ea) (s : State) : Result := onHcs12x s (load16 .x (globalWord ea s) (afterGlobalWord ea s))

/-- GLDY (HCS12X only; R219). -/
def execGldy (ea : Ea) (s : State) : Result := onHcs12x s (load16 .y (globalWord ea s) (afterGlobalWord ea s))

/-- GSTAA (HCS12X only; R220). -/
def execGstaa (ea : Ea) (s : State) : Result := onHcs12x s (globalStore8 .a ea s)

/-- GSTAB (HCS12X only; R221). -/
def execGstab (ea : Ea) (s : State) : Result := onHcs12x s (globalStore8 .b ea s)

/-- GSTD (HCS12X only; R222). -/
def execGstd (ea : Ea) (s : State) : Result := onHcs12x s (globalStore16 .d ea s)

/-- GSTS (HCS12X only; R223). -/
def execGsts (ea : Ea) (s : State) : Result := onHcs12x s (globalStore16 .sp ea s)

/-- GSTX (HCS12X only; R224). -/
def execGstx (ea : Ea) (s : State) : Result := onHcs12x s (globalStore16 .x ea s)

/-- GSTY (HCS12X only; R225). -/
def execGsty (ea : Ea) (s : State) : Result := onHcs12x s (globalStore16 .y ea s)

/-! ### Load effective address -/

/-- LEAS (R226). -/
def execLeas (xb : Xb) (s : State) : Result := .next (lea .sp xb s)

/-- LEAX (R227). -/
def execLeax (xb : Xb) (s : State) : Result := .next (lea .x xb s)

/-- LEAY (R228). -/
def execLeay (xb : Xb) (s : State) : Result := .next (lea .y xb s)

/-! ### Clears -/

/-- CLR (R229). -/
def execClr (ea : Ea) (s : State) : Result :=
  .next (((eaAfter ea s).write8 (eaAddress ea s) 0).setCcr (clearCcr s.ccr))

/-- CLRA (R230). -/
def execClra (s : State) : Result := .next ((s.set8 .a 0).setCcr (clearCcr s.ccr))

/-- CLRB (R231). -/
def execClrb (s : State) : Result := .next ((s.set8 .b 0).setCcr (clearCcr s.ccr))

/-- CLRW (HCS12X only; R232). -/
def execClrw (ea : Ea) (s : State) : Result :=
  onHcs12x s (((eaAfter ea s).write16 (eaAddress ea s) 0).setCcr (clearCcr s.ccr))

/-- CLRX (HCS12X only; R233). -/
def execClrx (s : State) : Result := onHcs12x s ((s.set16 .x 0).setCcr (clearCcr s.ccr))

/-- CLRY (HCS12X only; R234). -/
def execClry (s : State) : Result := onHcs12x s ((s.set16 .y 0).setCcr (clearCcr s.ccr))

/-! ### Pushes and pulls -/

/-- PSHA (R235). -/
def execPsha (s : State) : Result := .next (s.push8 s.a)

/-- PSHB (R236). -/
def execPshb (s : State) : Result := .next (s.push8 s.b)

/-- PSHC (R237). -/
def execPshc (s : State) : Result := .next (s.push8 s.ccr)

/-- PSHCW (HCS12X only; R238). -/
def execPshcw (s : State) : Result := onHcs12x s (s.push16 s.ccrw)

/-- PSHD (R239). -/
def execPshd (s : State) : Result := .next (s.push16 s.d)

/-- PSHX (R240). -/
def execPshx (s : State) : Result := .next (s.push16 s.x)

/-- PSHY (R241). -/
def execPshy (s : State) : Result := .next (s.push16 s.y)

/-- PULA (R242). -/
def execPula (s : State) : Result := .next (s.pulled8.set8 .a s.top8)

/-- PULB (R243). -/
def execPulb (s : State) : Result := .next (s.pulled8.set8 .b s.top8)

/-- PULC (R244). -/
def execPulc (s : State) : Result := .next (s.pulled8.writeCcr s.top8)

/-- PULCW (HCS12X only; R245). -/
def execPulcw (s : State) : Result := onHcs12x s (s.pulled16.writeCcrw s.top16)

/-- PULD (R246). -/
def execPuld (s : State) : Result := .next (s.pulled16.set16 .d s.top16)

/-- PULX (R247). -/
def execPulx (s : State) : Result := .next (s.pulled16.set16 .x s.top16)

/-- PULY (R248). -/
def execPuly (s : State) : Result := .next (s.pulled16.set16 .y s.top16)

end Sys2Proof.Machine
end

