-- ==== Sys2Proof/Machine/LogicBit.lean ====
section
/-! DEFINITION. Logic, complement, condition code masks, memory bit instructions (`44_logic_bit.md`). -/

namespace Sys2Proof.Machine

/-- The logic template (R16): the register takes the result, N and Z follow it, V is cleared. -/
def logic8 (r : Reg8) (op : Byte → Byte → Byte) (m : Byte) (t : State) : State :=
  (t.set8 r (op (t.get8 r) m)).setCcr (logicCcr t.ccr (op (t.get8 r) m))

/-- The logic template at 16 bits (R16). -/
def logic16 (r : Reg16) (op : Word → Word → Word) (m : Word) (t : State) : State :=
  (t.set16 r (op (t.get16 r) m)).setCcr (logicCcr t.ccr (op (t.get16 r) m))

/-- The value that N and Z of BTAS describe, under `BtasFlagSource` (R450, D18). -/
def btasTested (s : State) (mm m : Byte) : Byte :=
  match s.params.btasFlagSource with
  | .operand => m
  | .masked => m &&& mm

/-- ANDA (R422). -/
def execAnda (src : Src8) (s : State) : Result := .next (logic8 .a (· &&& ·) (src8Value src s) (src8After src s))

/-- ANDB (R423). -/
def execAndb (src : Src8) (s : State) : Result := .next (logic8 .b (· &&& ·) (src8Value src s) (src8After src s))

/-- ANDX (HCS12X only; R424). -/
def execAndx (src : Src16) (s : State) : Result :=
  onHcs12x s (logic16 .x (· &&& ·) (src16Value src s) (src16After src s))

/-- ANDY (HCS12X only; R425). -/
def execAndy (src : Src16) (s : State) : Result :=
  onHcs12x s (logic16 .y (· &&& ·) (src16Value src s) (src16After src s))

/-- ORAA (R426). -/
def execOraa (src : Src8) (s : State) : Result := .next (logic8 .a (· ||| ·) (src8Value src s) (src8After src s))

/-- ORAB (R427). -/
def execOrab (src : Src8) (s : State) : Result := .next (logic8 .b (· ||| ·) (src8Value src s) (src8After src s))

/-- ORX (HCS12X only; R428). -/
def execOrx (src : Src16) (s : State) : Result :=
  onHcs12x s (logic16 .x (· ||| ·) (src16Value src s) (src16After src s))

/-- ORY (HCS12X only; R429). -/
def execOry (src : Src16) (s : State) : Result :=
  onHcs12x s (logic16 .y (· ||| ·) (src16Value src s) (src16After src s))

/-- EORA (R430). -/
def execEora (src : Src8) (s : State) : Result := .next (logic8 .a (· ^^^ ·) (src8Value src s) (src8After src s))

/-- EORB (R431). -/
def execEorb (src : Src8) (s : State) : Result := .next (logic8 .b (· ^^^ ·) (src8Value src s) (src8After src s))

/-- EORX (HCS12X only; R432). -/
def execEorx (src : Src16) (s : State) : Result :=
  onHcs12x s (logic16 .x (· ^^^ ·) (src16Value src s) (src16After src s))

/-- EORY (HCS12X only; R433). -/
def execEory (src : Src16) (s : State) : Result :=
  onHcs12x s (logic16 .y (· ^^^ ·) (src16Value src s) (src16After src s))

/-- COM (R434). -/
def execCom (ea : Ea) (s : State) : Result := .next (modify8 ea (~~~ ·) (fun m => complementCcr s.ccr (~~~ m)) s)

/-- COMA (R435). -/
def execComa (s : State) : Result := .next (modifyReg8 .a (~~~ ·) (fun m => complementCcr s.ccr (~~~ m)) s)

/-- COMB (R436). -/
def execComb (s : State) : Result := .next (modifyReg8 .b (~~~ ·) (fun m => complementCcr s.ccr (~~~ m)) s)

/-- COMW (HCS12X only; R437). -/
def execComw (ea : Ea) (s : State) : Result :=
  onHcs12x s (modify16 ea (~~~ ·) (fun m => complementCcr s.ccr (~~~ m)) s)

/-- COMX (HCS12X only; R438). -/
def execComx (s : State) : Result := onHcs12x s (modifyReg16 .x (~~~ ·) (fun m => complementCcr s.ccr (~~~ m)) s)

/-- COMY (HCS12X only; R439). -/
def execComy (s : State) : Result := onHcs12x s (modifyReg16 .y (~~~ ·) (fun m => complementCcr s.ccr (~~~ m)) s)

/-! ### The condition code byte -/

/-- ANDCC (R440, R421). -/
def execAndcc (ii : Byte) (s : State) : Result := .next (s.setCcr (s.ccr &&& ii))

/-- ORCC (R441, R421: X cannot be set). -/
def execOrcc (ii : Byte) (s : State) : Result := .next (s.setCcr (s.ccr ||| (ii &&& 0xBF#8)))

/-- CLC (R442). -/
def execClc (s : State) : Result := .next (s.setCcr (withFlag s.ccr .c false))

/-- CLI (R443). -/
def execCli (s : State) : Result := .next (s.setCcr (withFlag s.ccr .i false))

/-- CLV (R444). -/
def execClv (s : State) : Result := .next (s.setCcr (withFlag s.ccr .v false))

/-- SEC (R445). -/
def execSec (s : State) : Result := .next (s.setCcr (withFlag s.ccr .c true))

/-- SEI (R446). -/
def execSei (s : State) : Result := .next (s.setCcr (withFlag s.ccr .i true))

/-- SEV (R447). -/
def execSev (s : State) : Result := .next (s.setCcr (withFlag s.ccr .v true))

/-! ### Bits of memory -/

/-- BCLR (R448). -/
def execBclr (ea : Ea) (mm : Byte) (s : State) : Result :=
  .next (modify8 ea (· &&& ~~~ mm) (fun m => logicCcr s.ccr (m &&& ~~~ mm)) s)

/-- BSET (R449). -/
def execBset (ea : Ea) (mm : Byte) (s : State) : Result :=
  .next (modify8 ea (· ||| mm) (fun m => logicCcr s.ccr (m ||| mm)) s)

/-- BTAS (HCS12X only; R450). -/
def execBtas (ea : Ea) (mm : Byte) (s : State) : Result :=
  onHcs12x s (modify8 ea (· ||| mm) (fun m => logicCcr s.ccr (btasTested s mm m)) s)

end Sys2Proof.Machine
end

