-- ==== Sys2Proof/Machine/MinMaxTable.lean ====
section
/-! DEFINITION. Minimum, maximum, table lookup and interpolation (`47_minmax_table_fuzzy.md` sections 1 and 2). -/

namespace Sys2Proof.Machine

/-- Flags from the internal compare of the register with the memory operand (R548). -/
def extremumCcr {w : Nat} (k : Byte) (reg m : BitVec w) : Byte := withAlu k (subAlu reg m false)

/-- MAXA and MINA (R540, R542): A takes the chosen value. -/
def extremum8 (xb : Xb) (pick : Byte → Byte → Byte) (s : State) : State :=
  let m := memByte (.idx xb) s
  ((afterMemByte (.idx xb) s).set8 .a (pick s.a m)).setCcr (extremumCcr s.ccr s.a m)

/-- MAXM and MINM (R541, R543): the location is written even when its value stays. -/
def extremumMem8 (xb : Xb) (pick : Byte → Byte → Byte) (s : State) : State :=
  modify8 (.idx xb) (pick s.a) (extremumCcr s.ccr s.a) s

/-- EMAXD and EMIND (R544, R546): D takes the chosen value. -/
def extremum16 (xb : Xb) (pick : Word → Word → Word) (s : State) : State :=
  let m := memWord (.idx xb) s
  ((afterMemWord (.idx xb) s).set16 .d (pick s.d m)).setCcr (extremumCcr s.ccr s.d m)

/-- EMAXM and EMINM (R545, R547): the location is written even when its value stays. -/
def extremumMem16 (xb : Xb) (pick : Word → Word → Word) (s : State) : State :=
  modify16 (.idx xb) (pick s.d) (extremumCcr s.ccr s.d) s

/-- The product of the fraction B with the signed difference of two table entries (R550, R551). -/
def tableProduct (b : Byte) (y1 y2 : Nat) : Int := (b.toNat : Int) * ((y2 : Int) - (y1 : Int))

/-- The interpolated value: the first entry plus the floor of the product over 256 (R550, R551). -/
def interpolated (b : Byte) (y1 y2 : Nat) : Int := (y1 : Int) + (tableProduct b y1 y2).fdiv 256

/-- C of a table lookup: bit 7 of the discarded fraction byte (R550, R551). -/
def fractionBit (b : Byte) (y1 y2 : Nat) : Bool := (BitVec.ofInt 8 (tableProduct b y1 y2)).getLsbD 7

/-- The flags of a table lookup: N and Z from the result, V unchanged (R550, R551). -/
def tableCcr {w : Nat} (k : Byte) (r : BitVec w) (c : Bool) : Byte := withFlag (withNZ k r.msb (r == 0#w)) .c c

/-- TBL (R550): the two entries are the bytes of one word. -/
def tbl (xb : Xb) (s : State) : State :=
  let m := memWord (.idx xb) s
  let r : Byte := BitVec.ofInt 8 (interpolated s.b m.high.toNat m.low.toNat)
  ((afterMemWord (.idx xb) s).set8 .a r).setCcr (tableCcr s.ccr r (fractionBit s.b m.high.toNat m.low.toNat))

/-- ETBL (R551). -/
def etbl (xb : Xb) (s : State) : State :=
  let y1 := memWord (.idx xb) s
  let u := afterMemWord (.idx xb) s
  let y2 := u.read16 (xbAddress xb s + 2)
  let r : Word := BitVec.ofInt 16 (interpolated s.b y1.toNat y2.toNat)
  ((u.touched16 (xbAddress xb s + 2)).set16 .d r).setCcr (tableCcr s.ccr r (fractionBit s.b y1.toNat y2.toNat))

/-- MAXA (R540). -/
def execMaxa (xb : Xb) (s : State) : Result := .next (extremum8 xb max8 s)

/-- MINA (R542). -/
def execMina (xb : Xb) (s : State) : Result := .next (extremum8 xb min8 s)

/-- MAXM (R541). -/
def execMaxm (xb : Xb) (s : State) : Result := .next (extremumMem8 xb max8 s)

/-- MINM (R543). -/
def execMinm (xb : Xb) (s : State) : Result := .next (extremumMem8 xb min8 s)

/-- EMAXD (R544). -/
def execEmaxd (xb : Xb) (s : State) : Result := .next (extremum16 xb max16 s)

/-- EMIND (R546). -/
def execEmind (xb : Xb) (s : State) : Result := .next (extremum16 xb min16 s)

/-- EMAXM (R545). -/
def execEmaxm (xb : Xb) (s : State) : Result := .next (extremumMem16 xb max16 s)

/-- EMINM (R547). -/
def execEminm (xb : Xb) (s : State) : Result := .next (extremumMem16 xb min16 s)

/-! ### Table lookup -/

/-- TBL (R550). -/
def execTbl (xb : Xb) (s : State) : Result := .next (tbl xb s)

/-- ETBL (R551). -/
def execEtbl (xb : Xb) (s : State) : Result := .next (etbl xb s)

end Sys2Proof.Machine
end

