-- ==== Sys2Proof/Machine/MoveTransfer.lean ====
section
/-! DEFINITION. Moves, register transfers and exchanges, sign extension (`41_move_transfer.md`). -/

namespace Sys2Proof.Machine

/-- The byte-wide places a transfer/exchange postbyte can name (R266 to R269). -/
inductive ByteLoc where
  | a | b
  /-- CCR, the low byte CCRL on HCS12X. -/
  | ccr
  | ccrh
  | xHigh | xLow | yHigh | yLow | spHigh | spLow | tmp2High | tmp2Low | tmp3High | tmp3Low
  deriving DecidableEq, Repr

/-- The word-wide places a transfer/exchange postbyte can name (R266 to R269). -/
inductive WordLoc where
  | ccrw | d | x | y | sp | tmp1 | tmp2 | tmp3
  deriving DecidableEq, Repr

/-- A byte-wide place read. -/
def State.getByteLoc (s : State) : ByteLoc → Byte
  | .a => s.a
  | .b => s.b
  | .ccr => s.ccr
  | .ccrh => s.ccrh
  | .xHigh => s.x.high
  | .xLow => s.x.low
  | .yHigh => s.y.high
  | .yLow => s.y.low
  | .spHigh => s.sp.high
  | .spLow => s.sp.low
  | .tmp2High => s.tmp2.high
  | .tmp2Low => s.tmp2.low
  | .tmp3High => s.tmp3.high
  | .tmp3Low => s.tmp3.low

/-- A byte-wide place written: the other half of a register stays; CCR through `WriteCCR`, CCRH under its mask
(R267, R269). -/
def State.setByteLoc (s : State) (l : ByteLoc) (v : Byte) : State :=
  match l with
  | .a => { s with a := v }
  | .b => { s with b := v }
  | .ccr => s.writeCcr v
  | .ccrh => s.writeCcrh v
  | .xHigh => { s with x := wordOf v s.x.low }
  | .xLow => { s with x := wordOf s.x.high v }
  | .yHigh => { s with y := wordOf v s.y.low }
  | .yLow => { s with y := wordOf s.y.high v }
  | .spHigh => { s with sp := wordOf v s.sp.low }
  | .spLow => { s with sp := wordOf s.sp.high v }
  | .tmp2High => { s with tmp2 := wordOf v s.tmp2.low }
  | .tmp2Low => { s with tmp2 := wordOf s.tmp2.high v }
  | .tmp3High => { s with tmp3 := wordOf v s.tmp3.low }
  | .tmp3Low => { s with tmp3 := wordOf s.tmp3.high v }

/-- A word-wide place read. -/
def State.getWordLoc (s : State) : WordLoc → Word
  | .ccrw => s.ccrw
  | .d => s.d
  | .x => s.x
  | .y => s.y
  | .sp => s.sp
  | .tmp1 => s.tmp1
  | .tmp2 => s.tmp2
  | .tmp3 => s.tmp3

/-- A word-wide place written; CCRW through `WriteCCRW`. -/
def State.setWordLoc (s : State) (l : WordLoc) (v : Word) : State :=
  match l with
  | .ccrw => s.writeCcrw v
  | .d => s.setD v
  | .x => { s with x := v }
  | .y => { s with y := v }
  | .sp => { s with sp := v }
  | .tmp1 => { s with tmp1 := v }
  | .tmp2 => { s with tmp2 := v }
  | .tmp3 => { s with tmp3 := v }

/-- Two byte-wide places exchanged, both read before either is written (R264). -/
def State.swapBytes (s : State) (l m : ByteLoc) : State :=
  (s.setByteLoc l (s.getByteLoc m)).setByteLoc m (s.getByteLoc l)

/-- Two word-wide places exchanged, both read before either is written (R264). -/
def State.swapWords (s : State) (l m : WordLoc) : State :=
  (s.setWordLoc l (s.getWordLoc m)).setWordLoc m (s.getWordLoc l)

/-- The byte register of a code below 3 (R270). -/
def byteLocOf : XferReg → Option ByteLoc
  | .a => some .a
  | .b => some .b
  | .ccr => some .ccr
  | .tmp | .d | .x | .y | .sp => none

/-- The word a code names, `tmp` for code 3; code 2 is CCRW (R267, R269). Codes 0 and 1 name a part of D. -/
def wordLocOf (r : XferReg) (tmp : WordLoc) : WordLoc :=
  match r with
  | .a | .b | .d => .d
  | .ccr => .ccrw
  | .tmp => tmp
  | .x => .x
  | .y => .y
  | .sp => .sp

/-- The row "A" of R267 and R269, by first register: the high half, but A, B and (for D) B. -/
def highLocOf : XferReg → ByteLoc
  | .a => .a
  | .b => .b
  | .ccr => .ccrh
  | .tmp => .tmp3High
  | .d => .b
  | .x => .xHigh
  | .y => .yHigh
  | .sp => .spHigh

/-- The low byte of a first register: row "B" of R267, and the 16-bit sources of rows 0 to 2 of R266. -/
def lowLocOf : XferReg → ByteLoc
  | .a => .a
  | .b => .b
  | .ccr => .ccr
  | .tmp => .tmp3Low
  | .d => .b
  | .x => .xLow
  | .y => .yLow
  | .sp => .spLow

/-- A cell of the table of R266 (bit 3 = 0): `r1` is the source, `r2` the destination. -/
def transferPlain (r1 r2 : XferReg) (s : State) : State :=
  match byteLocOf r2 with
  | some l => s.setByteLoc l (s.getByteLoc (lowLocOf r1))
  | none =>
    match byteLocOf r1 with
    | some l => s.setWordLoc (wordLocOf r2 .tmp2) (sext8 (s.getByteLoc l))
    | none => s.setWordLoc (wordLocOf r2 .tmp2) (s.getWordLoc (wordLocOf r1 .tmp3))

/-- `sex:D` of R267: sixteen copies of D[15]. -/
def signWord (w : Word) : Word := if w.msb then 0xFFFF#16 else 0#16

/-- The rows X and Y of R267, with the two halves of the destination. -/
def transferIndex (hi lo : ByteLoc) (dst : WordLoc) (r1 : XferReg) (s : State) : State :=
  match r1 with
  | .a => s.setByteLoc hi s.a
  | .b => s.setByteLoc lo s.b
  | .d => s.setWordLoc dst (signWord s.d)
  | .ccr | .tmp | .x | .y | .sp => s.setWordLoc dst (s.getWordLoc (wordLocOf r1 .tmp3))

/-- A cell of the table of R267 (bit 3 = 1). -/
def transferAlt (r1 r2 : XferReg) (s : State) : State :=
  match r2 with
  | .a => s.setByteLoc .a (s.getByteLoc (highLocOf r1))
  | .b => s.setByteLoc .b (s.getByteLoc (lowLocOf r1))
  | .ccr =>
    match r1 with
    | .a => s.setByteLoc .ccrh s.a
    | .b => s.setByteLoc .ccr s.b
    | .ccr | .tmp | .d | .x | .y | .sp => s.setWordLoc .ccrw (s.getWordLoc (wordLocOf r1 .tmp3))
  | .tmp =>
    match r1 with
    | .a => s.setByteLoc .tmp2High s.a
    | .b => s.setByteLoc .tmp2Low s.b
    | .d => s.setWordLoc .tmp1 s.d
    | .ccr | .tmp | .x | .y | .sp => s.setWordLoc .tmp2 (s.getWordLoc (wordLocOf r1 .tmp3))
  | .d =>
    match r1 with
    | .a => s.setWordLoc .d (sext8 s.a)
    | .b => s.setWordLoc .d (sext8 s.b)
    | .ccr | .tmp | .d | .x | .y | .sp => s.setWordLoc .d (s.getWordLoc (wordLocOf r1 .tmp1))
  | .x => transferIndex .xHigh .xLow .x r1 s
  | .y => transferIndex .yHigh .yLow .y r1 s
  | .sp =>
    match r1 with
    | .a => s.setByteLoc .spHigh s.a
    | .b => s.setByteLoc .spLow s.b
    | .ccr | .tmp | .d | .x | .y | .sp => s.setWordLoc .sp (s.getWordLoc (wordLocOf r1 .tmp3))

/-- The transfer tables (R263, R266, R267). -/
def transferCell (alt : Bool) (r1 r2 : XferReg) (s : State) : State :=
  if alt then transferAlt r1 r2 s else transferPlain r1 r2 s

/-- The high byte that accompanies the old byte of an 8-bit second register: $00 for A, $FF for B and CCR (R268). -/
def exchangeFill : ByteLoc → Byte
  | .a => 0x00#8
  | _ => 0xFF#8

/-- A cell of R268 with a byte-wide first and a word-wide second register: only D keeps no old low byte for A and B. -/
def exchangeByteWord (r1 : XferReg) (l : ByteLoc) (r2 : XferReg) (s : State) : State :=
  if r2 = .d ∧ r1 ≠ .ccr then s.setWordLoc .d (zext8 (s.getByteLoc l))
  else
    (s.setWordLoc (wordLocOf r2 .tmp2) (zext8 (s.getByteLoc l))).setByteLoc l (s.getWordLoc (wordLocOf r2 .tmp2)).low

/-- A cell of R268 with a word-wide first and a byte-wide second register: `EXG D,A` swaps A and B. -/
def exchangeWordByte (r1 : XferReg) (r2 : XferReg) (l : ByteLoc) (s : State) : State :=
  if r1 = .d ∧ r2 = .a then s.swapBytes .a .b
  else
    (s.setByteLoc l (s.getByteLoc (lowLocOf r1))).setWordLoc (wordLocOf r1 .tmp3)
      (wordOf (exchangeFill l) (s.getByteLoc l))

/-- A cell of the table of R268 (bit 3 = 0). -/
def exchangePlain (r1 r2 : XferReg) (s : State) : State :=
  match byteLocOf r1, byteLocOf r2 with
  | some l, some m => s.swapBytes l m
  | some l, none => exchangeByteWord r1 l r2 s
  | none, some m => exchangeWordByte r1 r2 m s
  | none, none => s.swapWords (wordLocOf r1 .tmp3) (wordLocOf r2 .tmp2)

/-- The rows X, Y and SP of R269, with the two halves of the second register. -/
def exchangeIndex (hi lo : ByteLoc) (dst : WordLoc) (r1 : XferReg) (s : State) : State :=
  match r1 with
  | .a => s.swapBytes .a hi
  | .b => s.swapBytes .b lo
  | .ccr | .tmp | .d | .x | .y | .sp => s.swapWords (wordLocOf r1 .tmp3) dst

/-- A cell of the table of R269 (bit 3 = 1). -/
def exchangeAlt (r1 r2 : XferReg) (s : State) : State :=
  match r2 with
  | .a => s.swapBytes (highLocOf r1) .a
  | .b =>
    match r1 with
    | .d => s.setByteLoc .a 0xFF#8
    | .a | .b | .ccr | .tmp | .x | .y | .sp => s.swapBytes (lowLocOf r1) .b
  | .ccr => exchangeIndex .ccrh .ccr .ccrw r1 s
  | .tmp =>
    match r1 with
    | .d => s.swapWords .d .tmp1
    | .a | .b | .ccr | .tmp | .x | .y | .sp => exchangeIndex .tmp2High .tmp2Low .tmp2 r1 s
  | .d =>
    match r1 with
    | .a => s.setWordLoc .d (zext8 s.a)
    | .b => s.setWordLoc .d (zext8 s.b)
    | .ccr | .tmp | .d | .x | .y | .sp => s.swapWords (wordLocOf r1 .tmp1) .d
  | .x => exchangeIndex .xHigh .xLow .x r1 s
  | .y => exchangeIndex .yHigh .yLow .y r1 s
  | .sp => exchangeIndex .spHigh .spLow .sp r1 s

/-- The exchange tables (R264, R268, R269). -/
def exchangeCell (alt : Bool) (r1 r2 : XferReg) (s : State) : State :=
  if alt then exchangeAlt r1 r2 s else exchangePlain r1 r2 s

/-- MOVB (R260). -/
def execMovb (src : Src8) (dst : Ea) (s : State) : Result :=
  .next (let s1 := src8After src s; (eaAfter dst s1).write8 (eaAddress dst s1) (src8Value src s))

/-- MOVW (R261). -/
def execMovw (src : Src16) (dst : Ea) (s : State) : Result :=
  .next (let s1 := src16After src s; (eaAfter dst s1).write16 (eaAddress dst s1) (src16Value src s))

/-- TFR (R263, cells of R266 and R267). -/
def execTfr (r1 r2 : XferReg) (alt : Bool) (s : State) : Result := .next (transferCell alt r1 r2 s)

/-- EXG (R264, cells of R268 and R269). -/
def execExg (r1 r2 : XferReg) (alt : Bool) (s : State) : Result := .next (exchangeCell alt r1 r2 s)

/-- SEX (R265). -/
def execSex (r1 : ByteReg) (r2 : WideReg) (s : State) : Result := .next (transferCell false r1.toXfer r2.toXfer s)

/-- TAP (R273). -/
def execTap (s : State) : Result := .next (s.writeCcr s.a)

/-- TPA (R274). -/
def execTpa (s : State) : Result := .next (s.set8 .a s.ccr)

/-- TSX (R275). -/
def execTsx (s : State) : Result := .next (s.set16 .x s.sp)

/-- TSY (R276). -/
def execTsy (s : State) : Result := .next (s.set16 .y s.sp)

/-- TXS (R277). -/
def execTxs (s : State) : Result := .next (s.set16 .sp s.x)

/-- TYS (R278). -/
def execTys (s : State) : Result := .next (s.set16 .sp s.y)

/-- XGDX (R279). -/
def execXgdx (s : State) : Result := .next ((s.set16 .x s.d).set16 .d s.x)

/-- XGDY (R280). -/
def execXgdy (s : State) : Result := .next ((s.set16 .y s.d).set16 .d s.y)

/-- TAB (R271). -/
def execTab (s : State) : Result := .next ((s.set8 .b s.a).setCcr (logicCcr s.ccr s.a))

/-- TBA (R272). -/
def execTba (s : State) : Result := .next ((s.set8 .a s.b).setCcr (logicCcr s.ccr s.b))

end Sys2Proof.Machine
end

