-- ==== Sys2Proof/Machine/MulDiv.lean ====
section
/-! DEFINITION. Multiply, multiply and accumulate, divide (`46_multiply_divide.md`). -/

namespace Sys2Proof.Machine

/-- Z, V and C written, N kept: FDIV and IDIV. -/
def withZVC (k : Byte) (z v c : Bool) : Byte := withFlag (withFlag (withFlag k .z z) .v v) .c c

/-- N, Z and C written, V kept: EMUL and EMULS. -/
def withNZC (k : Byte) (n z c : Bool) : Byte := withFlag (withNZ k n z) .c c

/-- MUL (R520): A:B takes the product; C is bit 7 of it. -/
def mul (s : State) : State :=
  let r : Word := BitVec.ofNat 16 (s.a.toNat * s.b.toNat)
  (s.set16 .d r).setCcr (withFlag s.ccr .c (r.getLsbD 7))

/-- Y:D takes a 32-bit product; N and Z over 32 bits, C is bit 15, V unchanged (R521, R522). -/
def product32 (p : BitVec 32) (s : State) : State :=
  ((s.set16 .y (p.extractLsb' 16 16)).set16 .d (p.extractLsb' 0 16)).setCcr
    (withNZC s.ccr p.msb (p == 0#32) (p.getLsbD 15))

/-- The product of two signed 16-bit values modulo 2^32 (R522, R523). -/
def signedProduct (a b : Word) : BitVec 32 := BitVec.ofInt 32 (a.toInt * b.toInt)

/-- The state once the factors of EMACS have been read, X's first (R92, R523). -/
def afterFactors (s : State) : State := (s.touched16 s.x).touched16 s.y

/-- The product of the factors of EMACS (R523). -/
def factorProduct (s : State) : BitVec 32 := signedProduct (s.read16 s.x) ((s.touched16 s.x).read16 s.y)

/-- EMACS (R523): the factors are read, then the accumulator; C is the carry out of bit 15 of the addition. -/
def emacs (hhll : Word) (s : State) : State :=
  let p := factorProduct s
  let u := afterFactors s
  let acc := u.read32 hhll
  let r := acc + p
  let carry := decide (65536 ≤ acc.toNat % 65536 + p.toNat % 65536)
  ((u.touched32 hhll).write32 hhll r).setCcr
    (withNZVC s.ccr r.msb (r == 0#32) (acc.msb == p.msb && r.msb != acc.msb) carry)

/-- The dividend Y:D (R529). -/
def State.dividend (s : State) : BitVec 32 := s.y ++ s.d

/-- A division that EDIV or EDIVS cannot do (R524, R525): Y and D stay (D21), C and V say why, the flags without a
value are free (U2). -/
def noQuotient (v c : Bool) (s : State) : State :=
  s.setCcr (withNZVC s.ccr (Config.freeN s.fresh) (Config.freeZ s.fresh) v c)

/-- The quotient and the remainder of EDIV and EDIVS (R524, R525). -/
def quotientYD (q rem : Word) (s : State) : State :=
  ((s.set16 .y q).set16 .d rem).setCcr (withNZVC s.ccr q.msb (q == 0#16) false false)

/-- EDIV (R524). -/
def ediv (s : State) : State :=
  let n := s.dividend.toNat
  let d := s.x.toNat
  if d = 0 then noQuotient (Config.freeV s.fresh) true s
  else if 0xFFFF < n / d then noQuotient true false s
  else quotientYD (BitVec.ofNat 16 (n / d)) (BitVec.ofNat 16 (n % d)) s

/-- EDIVS (R525): the quotient is truncated toward zero. -/
def edivs (s : State) : State :=
  let n := s.dividend.toInt
  let d := s.x.toInt
  if d = 0 then noQuotient (Config.freeV s.fresh) true s
  else if 32767 < n.tdiv d ∨ n.tdiv d < -32768 then noQuotient true false s
  else quotientYD (BitVec.ofInt 16 (n.tdiv d)) (BitVec.ofInt 16 (n.tmod d)) s

/-- A division that FDIV or IDIV cannot do (R526, R527): X takes $FFFF, D a free value (U2), Z is cleared. -/
def saturated (v c : Bool) (s : State) : State :=
  ((s.set16 .x 0xFFFF#16).set16 .d (Config.freeD s.fresh)).setCcr (withZVC s.ccr false v c)

/-- The quotient and the remainder of FDIV and IDIV (R526, R527). -/
def quotientXD (q rem : Word) (s : State) : State :=
  ((s.set16 .x q).set16 .d rem).setCcr (withZVC s.ccr (q == 0#16) false false)

/-- FDIV (R526). -/
def fdiv (s : State) : State :=
  let n := s.d.toNat
  let d := s.x.toNat
  if d = 0 then saturated true true s
  else if d ≤ n then saturated true false s
  else quotientXD (BitVec.ofNat 16 (n * 65536 / d)) (BitVec.ofNat 16 (n * 65536 % d)) s

/-- IDIV (R527). -/
def idiv (s : State) : State :=
  let n := s.d.toNat
  let d := s.x.toNat
  if d = 0 then saturated false true s
  else quotientXD (BitVec.ofNat 16 (n / d)) (BitVec.ofNat 16 (n % d)) s

/-- IDIVS (R528): X, D, N, Z and V are free after a zero divisor (U2); −32768 ÷ −1 leaves $8000 with V set. -/
def idivs (s : State) : State :=
  let n := s.d.toInt
  let d := s.x.toInt
  if d = 0 then
    ((s.set16 .x (Config.freeX s.fresh)).set16 .d (Config.freeD s.fresh)).setCcr
      (withNZVC s.ccr (Config.freeN s.fresh) (Config.freeZ s.fresh) (Config.freeV s.fresh) true)
  else
    let q : Word := BitVec.ofInt 16 (n.tdiv d)
    ((s.set16 .x q).set16 .d (BitVec.ofInt 16 (n.tmod d))).setCcr
      (withNZVC s.ccr q.msb (q == 0#16) (decide (32767 < n.tdiv d)) false)

/-- MUL (R520). -/
def execMul (s : State) : Result := .next (mul s)

/-- EMUL (R521). -/
def execEmul (s : State) : Result := .next (product32 (BitVec.ofNat 32 (s.d.toNat * s.y.toNat)) s)

/-- EMULS (R522). -/
def execEmuls (s : State) : Result := .next (product32 (signedProduct s.d s.y) s)

/-- EMACS (R523). -/
def execEmacs (hhll : Word) (s : State) : Result := .next (emacs hhll s)

/-- EDIV (R524). -/
def execEdiv (s : State) : Result := .next (ediv s)

/-- EDIVS (R525). -/
def execEdivs (s : State) : Result := .next (edivs s)

/-- FDIV (R526). -/
def execFdiv (s : State) : Result := .next (fdiv s)

/-- IDIV (R527). -/
def execIdiv (s : State) : Result := .next (idiv s)

/-- IDIVS (R528). -/
def execIdivs (s : State) : Result := .next (idivs s)

end Sys2Proof.Machine
end

