-- ==== Sys2Proof/Machine/ShiftRotate.lean ====
section
/-! DEFINITION. Shifts and rotates by one bit (`45_shift_rotate.md`). The formulas are those of R471 in `Flags.lean`. -/

namespace Sys2Proof.Machine


/-! ### ASL -/

/-- ASL (R472). -/
def execAsl (ea : Ea) (s : State) : Result := .next (alu8 ea aslAlu s)

/-- ASLA (R473). -/
def execAsla (s : State) : Result := .next (aluReg8 .a aslAlu s)

/-- ASLB (R474). -/
def execAslb (s : State) : Result := .next (aluReg8 .b aslAlu s)

/-- ASLD (R475). -/
def execAsld (s : State) : Result := .next (aluReg16 .d aslAlu s)

/-- ASLW (HCS12X only; R476). -/
def execAslw (ea : Ea) (s : State) : Result := onHcs12x s (alu16 ea aslAlu s)

/-- ASLX (HCS12X only; R477). -/
def execAslx (s : State) : Result := onHcs12x s (aluReg16 .x aslAlu s)

/-- ASLY (HCS12X only; R478). -/
def execAsly (s : State) : Result := onHcs12x s (aluReg16 .y aslAlu s)

/-! ### ASR -/

/-- ASR (R479). -/
def execAsr (ea : Ea) (s : State) : Result := .next (alu8 ea asrAlu s)

/-- ASRA (R480). -/
def execAsra (s : State) : Result := .next (aluReg8 .a asrAlu s)

/-- ASRB (R481). -/
def execAsrb (s : State) : Result := .next (aluReg8 .b asrAlu s)

/-- ASRW (HCS12X only; R482). -/
def execAsrw (ea : Ea) (s : State) : Result := onHcs12x s (alu16 ea asrAlu s)

/-- ASRX (HCS12X only; R483). -/
def execAsrx (s : State) : Result := onHcs12x s (aluReg16 .x asrAlu s)

/-- ASRY (HCS12X only; R484). -/
def execAsry (s : State) : Result := onHcs12x s (aluReg16 .y asrAlu s)

/-! ### LSL -/

/-- LSL (R485). -/
def execLsl (ea : Ea) (s : State) : Result := .next (alu8 ea aslAlu s)

/-- LSLA (R486). -/
def execLsla (s : State) : Result := .next (aluReg8 .a aslAlu s)

/-- LSLB (R487). -/
def execLslb (s : State) : Result := .next (aluReg8 .b aslAlu s)

/-- LSLD (R488). -/
def execLsld (s : State) : Result := .next (aluReg16 .d aslAlu s)

/-! ### LSR -/

/-- LSR (R492). -/
def execLsr (ea : Ea) (s : State) : Result := .next (alu8 ea lsrAlu s)

/-- LSRA (R493). -/
def execLsra (s : State) : Result := .next (aluReg8 .a lsrAlu s)

/-- LSRB (R494). -/
def execLsrb (s : State) : Result := .next (aluReg8 .b lsrAlu s)

/-- LSRD (R495). -/
def execLsrd (s : State) : Result := .next (aluReg16 .d lsrAlu s)

/-- LSRW (HCS12X only; R496). -/
def execLsrw (ea : Ea) (s : State) : Result := onHcs12x s (alu16 ea lsrAlu s)

/-- LSRX (HCS12X only; R497). -/
def execLsrx (s : State) : Result := onHcs12x s (aluReg16 .x lsrAlu s)

/-- LSRY (HCS12X only; R498). -/
def execLsry (s : State) : Result := onHcs12x s (aluReg16 .y lsrAlu s)

/-! ### ROL -/

/-- ROL (R499). -/
def execRol (ea : Ea) (s : State) : Result := .next (alu8 ea (rolAlu · (s.flag .c)) s)

/-- ROLA (R500). -/
def execRola (s : State) : Result := .next (aluReg8 .a (rolAlu · (s.flag .c)) s)

/-- ROLB (R501). -/
def execRolb (s : State) : Result := .next (aluReg8 .b (rolAlu · (s.flag .c)) s)

/-- ROLW (HCS12X only; R502). -/
def execRolw (ea : Ea) (s : State) : Result := onHcs12x s (alu16 ea (rolAlu · (s.flag .c)) s)

/-- ROLX (HCS12X only; R503). -/
def execRolx (s : State) : Result := onHcs12x s (aluReg16 .x (rolAlu · (s.flag .c)) s)

/-- ROLY (HCS12X only; R504). -/
def execRoly (s : State) : Result := onHcs12x s (aluReg16 .y (rolAlu · (s.flag .c)) s)

/-! ### ROR -/

/-- ROR (R505). -/
def execRor (ea : Ea) (s : State) : Result := .next (alu8 ea (rorAlu · (s.flag .c)) s)

/-- RORA (R506). -/
def execRora (s : State) : Result := .next (aluReg8 .a (rorAlu · (s.flag .c)) s)

/-- RORB (R507). -/
def execRorb (s : State) : Result := .next (aluReg8 .b (rorAlu · (s.flag .c)) s)

/-- RORW (HCS12X only; R508). -/
def execRorw (ea : Ea) (s : State) : Result := onHcs12x s (alu16 ea (rorAlu · (s.flag .c)) s)

/-- RORX (HCS12X only; R509). -/
def execRorx (s : State) : Result := onHcs12x s (aluReg16 .x (rorAlu · (s.flag .c)) s)

/-- RORY (HCS12X only; R510). -/
def execRory (s : State) : Result := onHcs12x s (aluReg16 .y (rorAlu · (s.flag .c)) s)

end Sys2Proof.Machine
end

