-- ==== Sys2Proof/Machine/System.lean ====
section
/-! DEFINITION. NOP, BGND, SWI, TRAP, RTI, WAI, STOP (`49_system.md`). -/

namespace Sys2Proof.Machine

/-- BGND (R641): with `BdmEnabled` the CPU enters Background, PC kept as the resume address; without, nothing. R641
reads the "V" of its access string as a refill of the instruction queue, the list of refills in R711 leaves BGND out:
here BGND is no change of flow and `refilled` stays, so that the bytes after it may be fetched old or new. DESIGN
CHOICE, log entry 12, safe: it allows what a refill would give and more. -/
def bgnd (s : State) : State := if s.params.bdmEnabled then { s with runState := .background } else s

/-- STOP (R646): disabled while S = 1; else the frame is stacked and the clocks stop. -/
def stop (s : State) : State :=
  if s.flag .s then s else { s.pushFrame s.pc with runState := .stopped }

/-- NOP (R640). -/
def execNop (s : State) : Result := .next s

/-- BGND (R641). -/
def execBgnd (s : State) : Result := .next (bgnd s)

/-- SWI (R642). -/
def execSwi (s : State) : Result := .next (s.enter swiVector false s.pc)

/-- TRAP (R643). -/
def execTrap (_tn : Byte) (s : State) : Result := .next (s.trap)

/-- RTI (R644). -/
def execRti (s : State) : Result := .next (s.returned)

/-- WAI (R645). -/
def execWai (s : State) : Result := .next ({ s.pushFrame s.pc with runState := .waiting })

/-- STOP (R646). -/
def execStop (s : State) : Result := .next (stop s)

end Sys2Proof.Machine
end

