-- ==== Sys2Proof/Machine/Dispatch.lean ====
section
/-! DEFINITION. What each instruction does: one meaning per constructor. The state an instruction is given has
`PCnext`, the address of the byte after it, in `pc` (R11, R45). -/

namespace Sys2Proof.Machine

def exec (i : Instr) (s : State) : Host.Outcome State Fault Refusal :=
  match i with
  | .ldaa src => Sys2Proof.Machine.execLdaa src s
  | .ldab src => Sys2Proof.Machine.execLdab src s
  | .ldd src => Sys2Proof.Machine.execLdd src s
  | .lds src => Sys2Proof.Machine.execLds src s
  | .ldx src => Sys2Proof.Machine.execLdx src s
  | .ldy src => Sys2Proof.Machine.execLdy src s
  | .staa ea => Sys2Proof.Machine.execStaa ea s
  | .stab ea => Sys2Proof.Machine.execStab ea s
  | .std ea => Sys2Proof.Machine.execStd ea s
  | .sts ea => Sys2Proof.Machine.execSts ea s
  | .stx ea => Sys2Proof.Machine.execStx ea s
  | .sty ea => Sys2Proof.Machine.execSty ea s
  | .gldaa ea => Sys2Proof.Machine.execGldaa ea s
  | .gldab ea => Sys2Proof.Machine.execGldab ea s
  | .gldd ea => Sys2Proof.Machine.execGldd ea s
  | .glds ea => Sys2Proof.Machine.execGlds ea s
  | .gldx ea => Sys2Proof.Machine.execGldx ea s
  | .gldy ea => Sys2Proof.Machine.execGldy ea s
  | .gstaa ea => Sys2Proof.Machine.execGstaa ea s
  | .gstab ea => Sys2Proof.Machine.execGstab ea s
  | .gstd ea => Sys2Proof.Machine.execGstd ea s
  | .gsts ea => Sys2Proof.Machine.execGsts ea s
  | .gstx ea => Sys2Proof.Machine.execGstx ea s
  | .gsty ea => Sys2Proof.Machine.execGsty ea s
  | .leas xb => Sys2Proof.Machine.execLeas xb s
  | .leax xb => Sys2Proof.Machine.execLeax xb s
  | .leay xb => Sys2Proof.Machine.execLeay xb s
  | .clr ea => Sys2Proof.Machine.execClr ea s
  | .clrw ea => Sys2Proof.Machine.execClrw ea s
  | .movb src dst => Sys2Proof.Machine.execMovb src dst s
  | .movw src dst => Sys2Proof.Machine.execMovw src dst s
  | .tfr r1 r2 alt => Sys2Proof.Machine.execTfr r1 r2 alt s
  | .exg r1 r2 alt => Sys2Proof.Machine.execExg r1 r2 alt s
  | .sex r1 r2 => Sys2Proof.Machine.execSex r1 r2 s
  | .adca src => Sys2Proof.Machine.execAdca src s
  | .adcb src => Sys2Proof.Machine.execAdcb src s
  | .adda src => Sys2Proof.Machine.execAdda src s
  | .addb src => Sys2Proof.Machine.execAddb src s
  | .addd src => Sys2Proof.Machine.execAddd src s
  | .addx src => Sys2Proof.Machine.execAddx src s
  | .addy src => Sys2Proof.Machine.execAddy src s
  | .aded src => Sys2Proof.Machine.execAded src s
  | .adex src => Sys2Proof.Machine.execAdex src s
  | .adey src => Sys2Proof.Machine.execAdey src s
  | .sbca src => Sys2Proof.Machine.execSbca src s
  | .sbcb src => Sys2Proof.Machine.execSbcb src s
  | .sbed src => Sys2Proof.Machine.execSbed src s
  | .sbex src => Sys2Proof.Machine.execSbex src s
  | .sbey src => Sys2Proof.Machine.execSbey src s
  | .suba src => Sys2Proof.Machine.execSuba src s
  | .subb src => Sys2Proof.Machine.execSubb src s
  | .subd src => Sys2Proof.Machine.execSubd src s
  | .subx src => Sys2Proof.Machine.execSubx src s
  | .suby src => Sys2Proof.Machine.execSuby src s
  | .inc ea => Sys2Proof.Machine.execInc ea s
  | .incw ea => Sys2Proof.Machine.execIncw ea s
  | .dec ea => Sys2Proof.Machine.execDec ea s
  | .decw ea => Sys2Proof.Machine.execDecw ea s
  | .neg ea => Sys2Proof.Machine.execNeg ea s
  | .negw ea => Sys2Proof.Machine.execNegw ea s
  | .cmpa src => Sys2Proof.Machine.execCmpa src s
  | .cmpb src => Sys2Proof.Machine.execCmpb src s
  | .cpd src => Sys2Proof.Machine.execCpd src s
  | .cps src => Sys2Proof.Machine.execCps src s
  | .cpx src => Sys2Proof.Machine.execCpx src s
  | .cpy src => Sys2Proof.Machine.execCpy src s
  | .cped src => Sys2Proof.Machine.execCped src s
  | .cpes src => Sys2Proof.Machine.execCpes src s
  | .cpex src => Sys2Proof.Machine.execCpex src s
  | .cpey src => Sys2Proof.Machine.execCpey src s
  | .tst ea => Sys2Proof.Machine.execTst ea s
  | .tstw ea => Sys2Proof.Machine.execTstw ea s
  | .bita src => Sys2Proof.Machine.execBita src s
  | .bitb src => Sys2Proof.Machine.execBitb src s
  | .bitx src => Sys2Proof.Machine.execBitx src s
  | .bity src => Sys2Proof.Machine.execBity src s
  | .anda src => Sys2Proof.Machine.execAnda src s
  | .andb src => Sys2Proof.Machine.execAndb src s
  | .andx src => Sys2Proof.Machine.execAndx src s
  | .andy src => Sys2Proof.Machine.execAndy src s
  | .oraa src => Sys2Proof.Machine.execOraa src s
  | .orab src => Sys2Proof.Machine.execOrab src s
  | .orx src => Sys2Proof.Machine.execOrx src s
  | .ory src => Sys2Proof.Machine.execOry src s
  | .eora src => Sys2Proof.Machine.execEora src s
  | .eorb src => Sys2Proof.Machine.execEorb src s
  | .eorx src => Sys2Proof.Machine.execEorx src s
  | .eory src => Sys2Proof.Machine.execEory src s
  | .com ea => Sys2Proof.Machine.execCom ea s
  | .comw ea => Sys2Proof.Machine.execComw ea s
  | .andcc ii => Sys2Proof.Machine.execAndcc ii s
  | .orcc ii => Sys2Proof.Machine.execOrcc ii s
  | .bclr ea mm => Sys2Proof.Machine.execBclr ea mm s
  | .bset ea mm => Sys2Proof.Machine.execBset ea mm s
  | .btas ea mm => Sys2Proof.Machine.execBtas ea mm s
  | .asl ea => Sys2Proof.Machine.execAsl ea s
  | .aslw ea => Sys2Proof.Machine.execAslw ea s
  | .asr ea => Sys2Proof.Machine.execAsr ea s
  | .asrw ea => Sys2Proof.Machine.execAsrw ea s
  | .lsl ea => Sys2Proof.Machine.execLsl ea s
  | .lsr ea => Sys2Proof.Machine.execLsr ea s
  | .lsrw ea => Sys2Proof.Machine.execLsrw ea s
  | .rol ea => Sys2Proof.Machine.execRol ea s
  | .rolw ea => Sys2Proof.Machine.execRolw ea s
  | .ror ea => Sys2Proof.Machine.execRor ea s
  | .rorw ea => Sys2Proof.Machine.execRorw ea s
  | .emacs hhll => Sys2Proof.Machine.execEmacs hhll s
  | .maxa xb => Sys2Proof.Machine.execMaxa xb s
  | .maxm xb => Sys2Proof.Machine.execMaxm xb s
  | .mina xb => Sys2Proof.Machine.execMina xb s
  | .minm xb => Sys2Proof.Machine.execMinm xb s
  | .emaxd xb => Sys2Proof.Machine.execEmaxd xb s
  | .emaxm xb => Sys2Proof.Machine.execEmaxm xb s
  | .emind xb => Sys2Proof.Machine.execEmind xb s
  | .eminm xb => Sys2Proof.Machine.execEminm xb s
  | .tbl xb => Sys2Proof.Machine.execTbl xb s
  | .etbl xb => Sys2Proof.Machine.execEtbl xb s
  | .bcc rr => Sys2Proof.Machine.execBcc rr s
  | .bcs rr => Sys2Proof.Machine.execBcs rr s
  | .beq rr => Sys2Proof.Machine.execBeq rr s
  | .bge rr => Sys2Proof.Machine.execBge rr s
  | .bgt rr => Sys2Proof.Machine.execBgt rr s
  | .bhi rr => Sys2Proof.Machine.execBhi rr s
  | .bhs rr => Sys2Proof.Machine.execBhs rr s
  | .ble rr => Sys2Proof.Machine.execBle rr s
  | .blo rr => Sys2Proof.Machine.execBlo rr s
  | .bls rr => Sys2Proof.Machine.execBls rr s
  | .blt rr => Sys2Proof.Machine.execBlt rr s
  | .bmi rr => Sys2Proof.Machine.execBmi rr s
  | .bne rr => Sys2Proof.Machine.execBne rr s
  | .bpl rr => Sys2Proof.Machine.execBpl rr s
  | .bra rr => Sys2Proof.Machine.execBra rr s
  | .brn rr => Sys2Proof.Machine.execBrn rr s
  | .bvc rr => Sys2Proof.Machine.execBvc rr s
  | .bvs rr => Sys2Proof.Machine.execBvs rr s
  | .lbcc qqrr => Sys2Proof.Machine.execLbcc qqrr s
  | .lbcs qqrr => Sys2Proof.Machine.execLbcs qqrr s
  | .lbeq qqrr => Sys2Proof.Machine.execLbeq qqrr s
  | .lbge qqrr => Sys2Proof.Machine.execLbge qqrr s
  | .lbgt qqrr => Sys2Proof.Machine.execLbgt qqrr s
  | .lbhi qqrr => Sys2Proof.Machine.execLbhi qqrr s
  | .lbhs qqrr => Sys2Proof.Machine.execLbhs qqrr s
  | .lble qqrr => Sys2Proof.Machine.execLble qqrr s
  | .lblo qqrr => Sys2Proof.Machine.execLblo qqrr s
  | .lbls qqrr => Sys2Proof.Machine.execLbls qqrr s
  | .lblt qqrr => Sys2Proof.Machine.execLblt qqrr s
  | .lbmi qqrr => Sys2Proof.Machine.execLbmi qqrr s
  | .lbne qqrr => Sys2Proof.Machine.execLbne qqrr s
  | .lbpl qqrr => Sys2Proof.Machine.execLbpl qqrr s
  | .lbra qqrr => Sys2Proof.Machine.execLbra qqrr s
  | .lbrn qqrr => Sys2Proof.Machine.execLbrn qqrr s
  | .lbvc qqrr => Sys2Proof.Machine.execLbvc qqrr s
  | .lbvs qqrr => Sys2Proof.Machine.execLbvs qqrr s
  | .brclr ea mm rr => Sys2Proof.Machine.execBrclr ea mm rr s
  | .brset ea mm rr => Sys2Proof.Machine.execBrset ea mm rr s
  | .dbeq r off => Sys2Proof.Machine.execDbeq r off s
  | .dbne r off => Sys2Proof.Machine.execDbne r off s
  | .ibeq r off => Sys2Proof.Machine.execIbeq r off s
  | .ibne r off => Sys2Proof.Machine.execIbne r off s
  | .tbeq r off => Sys2Proof.Machine.execTbeq r off s
  | .tbne r off => Sys2Proof.Machine.execTbne r off s
  | .bsr rr => Sys2Proof.Machine.execBsr rr s
  | .jsr ea => Sys2Proof.Machine.execJsr ea s
  | .call op => Sys2Proof.Machine.execCall op s
  | .jmp ea => Sys2Proof.Machine.execJmp ea s
  | .trap tn => Sys2Proof.Machine.execTrap tn s
  | .clra => Sys2Proof.Machine.execClra s
  | .clrb => Sys2Proof.Machine.execClrb s
  | .clrx => Sys2Proof.Machine.execClrx s
  | .clry => Sys2Proof.Machine.execClry s
  | .psha => Sys2Proof.Machine.execPsha s
  | .pshb => Sys2Proof.Machine.execPshb s
  | .pshc => Sys2Proof.Machine.execPshc s
  | .pshcw => Sys2Proof.Machine.execPshcw s
  | .pshd => Sys2Proof.Machine.execPshd s
  | .pshx => Sys2Proof.Machine.execPshx s
  | .pshy => Sys2Proof.Machine.execPshy s
  | .pula => Sys2Proof.Machine.execPula s
  | .pulb => Sys2Proof.Machine.execPulb s
  | .pulc => Sys2Proof.Machine.execPulc s
  | .pulcw => Sys2Proof.Machine.execPulcw s
  | .puld => Sys2Proof.Machine.execPuld s
  | .pulx => Sys2Proof.Machine.execPulx s
  | .puly => Sys2Proof.Machine.execPuly s
  | .tap => Sys2Proof.Machine.execTap s
  | .tpa => Sys2Proof.Machine.execTpa s
  | .tsx => Sys2Proof.Machine.execTsx s
  | .tsy => Sys2Proof.Machine.execTsy s
  | .txs => Sys2Proof.Machine.execTxs s
  | .tys => Sys2Proof.Machine.execTys s
  | .xgdx => Sys2Proof.Machine.execXgdx s
  | .xgdy => Sys2Proof.Machine.execXgdy s
  | .tab => Sys2Proof.Machine.execTab s
  | .tba => Sys2Proof.Machine.execTba s
  | .aba => Sys2Proof.Machine.execAba s
  | .abx => Sys2Proof.Machine.execAbx s
  | .aby => Sys2Proof.Machine.execAby s
  | .sba => Sys2Proof.Machine.execSba s
  | .daa => Sys2Proof.Machine.execDaa s
  | .inca => Sys2Proof.Machine.execInca s
  | .incb => Sys2Proof.Machine.execIncb s
  | .incx => Sys2Proof.Machine.execIncx s
  | .incy => Sys2Proof.Machine.execIncy s
  | .inx => Sys2Proof.Machine.execInx s
  | .iny => Sys2Proof.Machine.execIny s
  | .ins => Sys2Proof.Machine.execIns s
  | .deca => Sys2Proof.Machine.execDeca s
  | .decb => Sys2Proof.Machine.execDecb s
  | .decx => Sys2Proof.Machine.execDecx s
  | .decy => Sys2Proof.Machine.execDecy s
  | .dex => Sys2Proof.Machine.execDex s
  | .dey => Sys2Proof.Machine.execDey s
  | .des => Sys2Proof.Machine.execDes s
  | .nega => Sys2Proof.Machine.execNega s
  | .negb => Sys2Proof.Machine.execNegb s
  | .negx => Sys2Proof.Machine.execNegx s
  | .negy => Sys2Proof.Machine.execNegy s
  | .cba => Sys2Proof.Machine.execCba s
  | .tsta => Sys2Proof.Machine.execTsta s
  | .tstb => Sys2Proof.Machine.execTstb s
  | .tstx => Sys2Proof.Machine.execTstx s
  | .tsty => Sys2Proof.Machine.execTsty s
  | .coma => Sys2Proof.Machine.execComa s
  | .comb => Sys2Proof.Machine.execComb s
  | .comx => Sys2Proof.Machine.execComx s
  | .comy => Sys2Proof.Machine.execComy s
  | .clc => Sys2Proof.Machine.execClc s
  | .cli => Sys2Proof.Machine.execCli s
  | .clv => Sys2Proof.Machine.execClv s
  | .sec => Sys2Proof.Machine.execSec s
  | .sei => Sys2Proof.Machine.execSei s
  | .sev => Sys2Proof.Machine.execSev s
  | .asla => Sys2Proof.Machine.execAsla s
  | .aslb => Sys2Proof.Machine.execAslb s
  | .asld => Sys2Proof.Machine.execAsld s
  | .aslx => Sys2Proof.Machine.execAslx s
  | .asly => Sys2Proof.Machine.execAsly s
  | .asra => Sys2Proof.Machine.execAsra s
  | .asrb => Sys2Proof.Machine.execAsrb s
  | .asrx => Sys2Proof.Machine.execAsrx s
  | .asry => Sys2Proof.Machine.execAsry s
  | .lsla => Sys2Proof.Machine.execLsla s
  | .lslb => Sys2Proof.Machine.execLslb s
  | .lsld => Sys2Proof.Machine.execLsld s
  | .lsra => Sys2Proof.Machine.execLsra s
  | .lsrb => Sys2Proof.Machine.execLsrb s
  | .lsrd => Sys2Proof.Machine.execLsrd s
  | .lsrx => Sys2Proof.Machine.execLsrx s
  | .lsry => Sys2Proof.Machine.execLsry s
  | .rola => Sys2Proof.Machine.execRola s
  | .rolb => Sys2Proof.Machine.execRolb s
  | .rolx => Sys2Proof.Machine.execRolx s
  | .roly => Sys2Proof.Machine.execRoly s
  | .rora => Sys2Proof.Machine.execRora s
  | .rorb => Sys2Proof.Machine.execRorb s
  | .rorx => Sys2Proof.Machine.execRorx s
  | .rory => Sys2Proof.Machine.execRory s
  | .mul => Sys2Proof.Machine.execMul s
  | .emul => Sys2Proof.Machine.execEmul s
  | .emuls => Sys2Proof.Machine.execEmuls s
  | .ediv => Sys2Proof.Machine.execEdiv s
  | .edivs => Sys2Proof.Machine.execEdivs s
  | .fdiv => Sys2Proof.Machine.execFdiv s
  | .idiv => Sys2Proof.Machine.execIdiv s
  | .idivs => Sys2Proof.Machine.execIdivs s
  | .mem => Sys2Proof.Machine.execMem s
  | .rev => Sys2Proof.Machine.execRev s
  | .revw => Sys2Proof.Machine.execRevw s
  | .wav => Sys2Proof.Machine.execWav s
  | .wavr => Sys2Proof.Machine.execWavr s
  | .rtc => Sys2Proof.Machine.execRtc s
  | .rts => Sys2Proof.Machine.execRts s
  | .nop => Sys2Proof.Machine.execNop s
  | .bgnd => Sys2Proof.Machine.execBgnd s
  | .swi => Sys2Proof.Machine.execSwi s
  | .rti => Sys2Proof.Machine.execRti s
  | .wai => Sys2Proof.Machine.execWai s
  | .stop => Sys2Proof.Machine.execStop s

end Sys2Proof.Machine
end

