-- ==== Sys2Proof/Machine/Fetch.lean ====
section
/-! DEFINITION. What surrounds an instruction: its fetch through the instruction queue (R61, R91, R711), the
bookkeeping after it, and the taking of interrupts (R667, R668, R679). -/

namespace Sys2Proof.Machine

/-! ### Fetch -/

/-- The bytes the instruction queue may still hold for an address although memory has changed (R711). -/
def State.staleBytes (s : State) (addr : Word) : List Byte := (s.queue.filter fun e => e.1 == addr).map (·.2)

/-- The byte fetched at an address: the byte in memory, or, where an older one may be in the queue, a free choice
among them (R91, U18). -/
def State.fetchByte (s : State) (addr : Word) : Byte :=
  match s.staleBytes addr with
  | [] => s.read8 addr
  | old :: olds =>
    (s.read8 addr :: old :: olds).getD (Config.stalePick s.fresh addr.toNat % (olds.length + 2)) old

/-- The length of the longest instruction, `18 02 xb ee ff xb ee ff` (R261). -/
def longestInstruction : Nat := 8

/-- The state after `n` bytes from an address on are read one after another (R11, R93). -/
def State.touchedBytes (s : State) (addr : Word) : Nat → State
  | 0 => s
  | n + 1 => (s.touchedBytes addr n).touched8 (addr + BitVec.ofNat 16 n)

/-- The bytes from PC on, as many as the longest instruction has, each as it is once those before it are read. -/
def State.fetchBytes (s : State) : List Byte :=
  (List.range longestInstruction).map fun k =>
    (s.touchedBytes s.pc k).fetchByte (s.pc + BitVec.ofNat 16 k)

/-- A read of a place that may or may not be made. -/
def State.mayAccess (s : State) (p : Place) (made : Bool) : State :=
  match p with
  | .device _ => if made then s.accessed p else s
  | .cell _ | .rom _ | .globalCell _ | .globalRom _ | .openBus _ | .ppageReg | .gpageReg => s

/-- The prefetches of one step: of the `QueueDepth` bytes from `pcnext` on, any may be read, in rising order (R61,
R710), and each is a real read (D3). A step that changes the flow (a branch taken, a return, the entry to an exception,
a reset) reads nothing at its target: the reads of the refill ("PPP") are those that the next step makes from its PC
on, and they are missing where an interrupt or a reset comes before the target's instruction. The rules do not say
which step makes them: DESIGN CHOICE, log entry 8, unsafe for a target in the registers of a device. -/
def State.prefetch (s : State) (pcnext : Word) : State :=
  (List.range s.params.queueDepth).foldl
    (fun u k => u.mayAccess (u.place (pcnext + BitVec.ofNat 16 k)) (Config.prefetched s.fresh k)) s

/-- The state that `exec` is given for an instruction of `n` bytes: its bytes fetched, PC at `PCnext` (R11). The spec
orders the data accesses of an instruction (R92) and does not say when in the step its prefetches are made (D3): here
all of them come after the bytes of the instruction and before its first data access. DESIGN CHOICE, log entry 8,
unsafe for devices that tell the order. -/
def State.fetched (s : State) (n : Nat) : State :=
  { (s.touchedBytes s.pc n).prefetch (s.pc + BitVec.ofNat 16 n) with
    pc := s.pc + BitVec.ofNat 16 n, refilled := false }

/-! ### After an instruction -/

/-- Whether an instruction keeps TMP1 to TMP3: TFR, EXG, SEX and the other names of their words (D13). -/
def keepsTemporaries : Instr → Bool
  | .tfr _ _ _ | .exg _ _ _ | .sex _ _ | .tap | .tpa | .tsx | .tsy | .txs | .tys | .xgdx | .xgdy => true
  | _ => false

/-- Whether an instruction has commas, at which it can stop and go on later (R675). -/
def hasCommas : Instr → Bool
  | .rev | .revw | .wav | .wavr => true
  | _ => false

/-- TMP1 to TMP3 after anything but TFR, EXG and SEX: free values (R59, D13). -/
def State.havocTemporaries (s : State) : State :=
  { s with tmp1 := Config.freeTmp1 s.fresh, tmp2 := Config.freeTmp2 s.fresh, tmp3 := Config.freeTmp3 s.fresh }

/-- Whether an address is one of the `n` bytes from `lo` on. -/
def inWindow (lo : Word) (n : Nat) (addr : Word) : Bool := decide ((addr - lo).toNat < n)

/-- The old byte of a place, if it has changed since `before`. -/
def changedAt (before after : State) (addr : Word) (p : Place) : Option (Word × Byte) :=
  if before.getPlace p = after.getPlace p then none else some (addr, before.getPlace p)

/-- The old byte at an address, if what lies there has changed since `before` (R711). -/
def changedByte (before after : State) (addr : Word) : Option (Word × Byte) :=
  match before.place addr with
  | .openBus _ => none
  | .cell loc => changedAt before after addr (.cell loc)
  | .rom loc => changedAt before after addr (.rom loc)
  | .globalCell loc => changedAt before after addr (.globalCell loc)
  | .globalRom loc => changedAt before after addr (.globalRom loc)
  | .device reg => changedAt before after addr (.device reg)
  | .ppageReg => changedAt before after addr .ppageReg
  | .gpageReg => changedAt before after addr .gpageReg

/-- The bytes among the `n` from `lo` on that have changed, with their old values. -/
def changedBytes (before after : State) (lo : Word) (n : Nat) : List (Word × Byte) :=
  (List.range n).filterMap fun k => changedByte before after (lo + BitVec.ofNat 16 k)

/-- The queue after an instruction in straight line: what it may hold of the `n` bytes from `lo` on (R91, R711). -/
def State.keepQueue (after before : State) (lo : Word) (n : Nat) : State :=
  { after with
    queue := (before.queue.filter fun e => inWindow lo n e.1) ++ changedBytes before after lo n
    refilled := false }

/-- The queue after an instruction whose next one is at `pcnext`: refilled by a change of flow, whatever its target
(R91, R711), else kept. An instruction stopped at a comma is not left behind, so its own bytes from PC on still count.
-/
def State.settleQueue (after before : State) (i : Instr) (pcnext : Word) : State :=
  if hasCommas i then
    after.keepQueue before after.pc ((pcnext - after.pc).toNat + before.params.queueDepth)
  else if after.refilled then { after with queue := [], refilled := false }
  else after.keepQueue before pcnext before.params.queueDepth

/-- The free values advance. -/
def State.tick (s : State) : State := { s with fresh := s.fresh + 1 }

/-- What a step adds to the instruction `i` it has run from `before`. -/
def State.settle (after before : State) (i : Instr) (pcnext : Word) : State :=
  ((if keepsTemporaries i then after else after.havocTemporaries).settleQueue before i pcnext).tick

/-! ### One instruction -/

/-- `exec` of an instruction of `n` bytes with PC at `PCnext` (R11), and what the step adds. -/
def State.runDecoded (s : State) (i : Instr) (n : Nat) : Result :=
  match exec i (s.fetched n) with
  | .next t => .next (t.settle s i (s.pc + BitVec.ofNat 16 n))
  | .fault f => .fault f
  | .refused r => .refused r

/-- Fetch, decode, execute (R11, R19). -/
def State.runInstruction (s : State) : Result :=
  match decode s.params.variant s.fetchBytes with
  | .ok (i, rest) => s.runDecoded i (longestInstruction - rest.length)
  | .error e => .refused (.undefinedEncoding e)

/-! ### Interrupts -/

/-- What a step adds to the taking of an interrupt: the queue is refilled (R711), TMP1 to TMP3 are free (D13). -/
def State.settleEntry (s : State) : State := { s.havocTemporaries with queue := [], refilled := false }.tick

/-- An interrupt taken between two instructions (R668, R674). The request stays pending until the environment
withdraws it (R666). -/
def State.interrupt (s : State) (r : Request) : State :=
  (s.enter (vectorOf r) (r == .xirq) s.pc).settleEntry

/-- The short sequence that ends WAI and STOP: the frame is already on the stack (R645, R646, R679). -/
def State.wake (s : State) (r : Request) : State :=
  ((s.touchedVector (vectorOf r)).vectored (s.readVector (vectorOf r)) (r == .xirq)).settleEntry

/-- The exit "(continue)" of STOP: an XIRQ request that is masked (R646, R679). -/
def State.continuesAfterStop (s : State) : Bool :=
  s.pending.contains .xirq && s.params.irqSources.contains .xirq

/-- One step while Waiting (R645, R679). -/
def State.waitingStep (s : State) : State :=
  match s.nextInterrupt with
  | some r => s.wake r
  | none => s

/-- One step while Stopped (R646, R679). -/
def State.stoppedStep (s : State) : State :=
  match s.nextInterrupt with
  | some r => s.wake r
  | none =>
    if s.continuesAfterStop then { s with sp := s.sp + frameSize s.params.variant, runState := .running } else s

/-- One step while Running: a pending enabled interrupt, else the next instruction (R667). -/
def State.runningStep (s : State) : Result :=
  match s.nextInterrupt with
  | some r => .next (s.interrupt r)
  | none => s.runInstruction

/-- One step with no reset pending (R63). In Background nothing happens (R678). -/
def State.runStateStep (s : State) : Result :=
  match s.runState with
  | .running => s.runningStep
  | .waiting => .next s.waitingStep
  | .stopped => .next s.stoppedStep
  | .background => .next s

/-! ### A program placed in memory -/

/-- One byte put into the memory that a fetch at `addr` reads, whatever the platform lets a store do there. -/
def State.placeByte (s : State) (addr : Word) (v : Byte) : State :=
  match s.place addr with
  | .cell loc => { s with mem := memSet s.mem loc v }
  | .rom loc => { s with mem := memSet s.mem loc v }
  | .globalCell _ | .globalRom _ | .device _ | .openBus _ | .ppageReg | .gpageReg => s

/-- Bytes put into memory from `addr` on. -/
def State.placeBytes (s : State) (addr : Word) : List Byte → State
  | [] => s
  | v :: rest => (s.placeByte addr v).placeBytes (addr + 1) rest

end Sys2Proof.Machine
end

