-- ==== Sys2Proof/Machine/Abandon.lean ====
section
/-! DEFINITION. A reset in the middle of what the CPU is doing (R662, D8): it is taken at once, and what was under way
is abandoned with its partial effects on memory and registers as they are. How far it had got is a free choice. -/

namespace Sys2Proof.Machine

/-! ### The values a register passes through -/

/-- The postbytes of a memory operand. -/
def eaPostbytes : Ea → List Xb
  | .dir _ | .ext _ => []
  | .idx xb => [xb]

/-- The postbytes of an 8-bit source operand. -/
def src8Postbytes : Src8 → List Xb
  | .imm _ => []
  | .mem ea => eaPostbytes ea

/-- The postbytes of a 16-bit source operand. -/
def src16Postbytes : Src16 → List Xb
  | .imm _ => []
  | .mem ea => eaPostbytes ea

/-- The postbytes of an instruction in the order of their evaluation (R146, D19). -/
def postbytesOf : Instr → List Xb
  | .ldaa src | .ldab src | .adca src | .adcb src | .adda src | .addb src | .sbca src | .sbcb src | .suba src
  | .subb src | .cmpa src | .cmpb src | .bita src | .bitb src | .anda src | .andb src | .oraa src | .orab src
  | .eora src | .eorb src => src8Postbytes src
  | .ldd src | .lds src | .ldx src | .ldy src | .addd src | .addx src | .addy src | .aded src | .adex src
  | .adey src | .sbed src | .sbex src | .sbey src | .subd src | .subx src | .suby src | .cpd src | .cps src
  | .cpx src | .cpy src | .cped src | .cpes src | .cpex src | .cpey src | .bitx src | .bity src | .andx src
  | .andy src | .orx src | .ory src | .eorx src | .eory src => src16Postbytes src
  | .staa ea | .stab ea | .std ea | .sts ea | .stx ea | .sty ea | .gldaa ea | .gldab ea | .gldd ea | .glds ea
  | .gldx ea | .gldy ea | .gstaa ea | .gstab ea | .gstd ea | .gsts ea | .gstx ea | .gsty ea | .clr ea
  | .clrw ea | .inc ea | .incw ea | .dec ea | .decw ea | .neg ea | .negw ea | .tst ea | .tstw ea | .com ea
  | .comw ea | .asl ea | .aslw ea | .asr ea | .asrw ea | .lsl ea | .lsr ea | .lsrw ea | .rol ea | .rolw ea
  | .ror ea | .rorw ea | .jsr ea | .jmp ea => eaPostbytes ea
  | .bclr ea _ | .bset ea _ | .btas ea _ => eaPostbytes ea
  | .brclr ea _ _ | .brset ea _ _ => eaPostbytes ea
  | .leas xb | .leax xb | .leay xb | .maxa xb | .maxm xb | .mina xb | .minm xb | .emaxd xb | .emaxm xb
  | .emind xb | .eminm xb | .tbl xb | .etbl xb => [xb]
  | .movb src dst => src8Postbytes src ++ eaPostbytes dst
  | .movw src dst => src16Postbytes src ++ eaPostbytes dst
  | .call (.direct ea _) => eaPostbytes ea
  | .call (.indirect xb) => [xb]
  | .tfr _ _ _ | .exg _ _ _ | .sex _ _ | .andcc _ | .orcc _ | .bcc _ | .bcs _ | .beq _ | .bge _ | .bgt _
  | .bhi _ | .bhs _ | .ble _ | .blo _ | .bls _ | .blt _ | .bmi _ | .bne _ | .bpl _ | .bra _ | .brn _ | .bvc _
  | .bvs _ | .bsr _ | .trap _ | .emacs _ | .lbcc _ | .lbcs _ | .lbeq _ | .lbge _ | .lbgt _ | .lbhi _ | .lbhs _
  | .lble _ | .lblo _ | .lbls _ | .lblt _ | .lbmi _ | .lbne _ | .lbpl _ | .lbra _ | .lbrn _ | .lbvc _ | .lbvs _
  | .dbeq _ _ | .dbne _ _ | .ibeq _ _ | .ibne _ _ | .tbeq _ _ | .tbne _ _ | .clra | .clrb | .clrx | .clry
  | .psha | .pshb | .pshc | .pshcw | .pshd | .pshx | .pshy | .pula | .pulb | .pulc | .pulcw | .puld | .pulx
  | .puly | .tap | .tpa | .tsx | .tsy | .txs | .tys | .xgdx | .xgdy | .tab | .tba | .aba | .abx | .aby | .sba
  | .daa | .inca | .incb | .incx | .incy | .inx | .iny | .ins | .deca | .decb | .decx | .decy | .dex | .dey
  | .des | .nega | .negb | .negx | .negy | .cba | .tsta | .tstb | .tstx | .tsty | .coma | .comb | .comx | .comy
  | .clc | .cli | .clv | .sec | .sei | .sev | .asla | .aslb | .asld | .aslx | .asly | .asra | .asrb | .asrx
  | .asry | .lsla | .lslb | .lsld | .lsra | .lsrb | .lsrd | .lsrx | .lsry | .rola | .rolb | .rolx | .roly
  | .rora | .rorb | .rorx | .rory | .mul | .emul | .emuls | .ediv | .edivs | .fdiv | .idiv | .idivs | .mem
  | .rev | .revw | .wav | .wavr | .rtc | .rts | .nop | .bgnd | .swi | .rti | .wai | .stop => []

/-- The values a register with value `v` takes as postbytes auto-modify it (R132). -/
def autoValues (r : Reg16) : List Xb → Word → List Word
  | [], _ => []
  | .auto q _ k :: rest, v =>
    if autoReg q = r then (v + autoStep k) :: autoValues r rest (v + autoStep k) else autoValues r rest v
  | .const5 _ _ :: rest, v | .const9 _ _ :: rest, v | .const16 _ _ :: rest, v | .indirect16 _ _ :: rest, v
  | .acc _ _ :: rest, v | .indirectD _ :: rest, v => autoValues r rest v

/-- The values SP takes on its way through pushes or pulls, which move it by at most 16 bytes. -/
def stackPath (first last : Word) : List Word :=
  if (first - last).toNat ≤ 16 then (List.range (first - last).toNat).map fun k => first - BitVec.ofNat 16 k
  else if (last - first).toNat ≤ 16 then (List.range (last - first).toNat).map fun k => first + BitVec.ofNat 16 k
  else []

/-! ### How far an instruction had got -/

/-- A choice among values, by a number. -/
def chosen {α : Type} (choice : Nat) (first : α) (others : List α) : α :=
  (first :: others).getD (choice % (others.length + 1)) first

/-- The registers in the middle of WAV: the pointers and the count advanced (R566). -/
def wavProgress (k : Nat) (w : WavLoop) (s : State) : Option State :=
  let p := wavPasses k (s, w)
  if p.2.count = 0#8 then none else some { p.1 with x := p.2.x, y := p.2.y, b := p.2.count }

/-- The state after `k` passes of the loop of an instruction that has one, while the loop has not ended. -/
def loopProgress (i : Instr) (k : Nat) (s : State) : Option State :=
  match i with
  | .rev => if (runPasses revPass k s).2 then none else some (runPasses revPass k s).1
  | .revw => if (runPasses revwPass k s).2 then none else some (runPasses revwPass k s).1
  | .wav => if s.b = 0#8 then none else wavProgress k ⟨s.x, s.y, s.b, 0, 0⟩ s
  | .wavr =>
    match s.wavFrames.find? s.matchesFrame with
    | none => none
    | some f => if s.b = 0#8 then none else wavProgress k ⟨s.x, s.y, s.b, f.weighted, f.weights⟩ s.pulledFrame
  | _ => none

/-- The states after the first, the second, the third and the fourth push of a frame (R92, R668). -/
def pushStages (s : State) (rtn : Word) : List State :=
  let s1 := s.push16 rtn
  let s2 := s1.push16 s.y
  let s3 := s2.push16 s.x
  [s1, s2, s3, s3.push16 (wordOf s.b s.a)]

/-- The states on the way through CALL: after the first push, and after the second. PPAGE may have its new page at any
of them or before: R620 writes it last, and the letters "gnSsPPP" name its write first. -/
def callStages (op : CallOp) (s : State) : List State :=
  let u :=
    match op with
    | .direct ea _ => eaAfter ea s
    | .indirect xb => (s.touched16 (indexedAddress xb s)).touched8 (indexedAddress xb s + 2)
  let page := (call op s).ppage
  let t := u.push16 u.pc
  [{ u with ppage := page }, t, { t with ppage := page }, t.push8 t.ppage]

/-- The state after the first of the two stores of EMACS, the high word of the result (R92, R523). -/
def emacsStages (hhll : Word) (s : State) : List State :=
  let u := afterFactors s
  [(u.touched32 hhll).write16 hhll ((u.read32 hhll + factorProduct s).extractLsb' 16 16)]

/-- The states between the stores of an instruction that makes several, in the order in which it makes them (R92): the
pushes of a frame, of CALL, and the two words of EMACS. Every other instruction makes one access that stores, or none.
-/
def betweenStores (i : Instr) (s : State) : List State :=
  if i.hcs12xOnly ∧ s.params.variant = .hcs12 then pushStages s s.pc
  else
    match i with
    | .swi | .trap _ | .wai => pushStages s s.pc
    | .stop => if s.flag .s then [] else pushStages s s.pc
    | .call op => callStages op s
    | .emacs hhll => emacsStages hhll s
    | _ => []

/-- Condition codes of which each flag comes from one of several bytes. -/
def partlyFlagged (first : Byte) (others : List Byte) (made : Nat → Nat) : Byte :=
  [Flag.s, .x, .h, .i, .n, .z, .v, .c].foldl
    (fun k f => withFlag k f (chosen (made (16 + f.bit)) (flagOf first f) (others.map (flagOf · f)))) first

/-- The state in which a thing the CPU does is abandoned (R662, D8). It began in `s` and would have led to `done`; of
its loop, if it has one, `before` is the state before the pass under way and `last` the state after it, else they are
`s` and `done`; `between` are the states between its stores. Memory and the two page registers are as after a first
part of the stores in program order, a 16-bit store made whole or not at all (R82, R92, D11). Each register and flag
has its value from before, from after or one that it passes through, and the devices have any state, if what was
abandoned reaches them. How far each of these had got is a free choice (DESIGN CHOICE, log entry 22). -/
def State.cutAt (s before last done : State) (between : List State) (postbytes : List Xb) : State :=
  let made := Config.cutShort last.fresh
  let autoSp := autoValues .sp postbytes s.sp
  let stored := chosen (made 6) before (between ++ [last])
  { last with
    a := chosen (made 0) s.a [before.a, last.a]
    b := chosen (made 1) s.b [before.b, last.b]
    x := chosen (made 2) s.x (before.x :: last.x :: autoValues .x postbytes s.x)
    y := chosen (made 3) s.y (before.y :: last.y :: autoValues .y postbytes s.y)
    sp := chosen (made 4) s.sp (last.sp :: autoSp ++ stackPath (autoSp.getLastD s.sp) last.sp)
    ccr := partlyFlagged s.ccr [before.ccr, last.ccr, done.ccr] made
    ccrh := chosen (made 5) s.ccrh [last.ccrh]
    mem := stored.mem
    gmem := stored.gmem
    ppage := stored.ppage
    gpage := stored.gpage
    devices := if last.devices = s.devices then s.devices else made 7 }

/-- An instruction abandoned in the loop pass with number `k`, or anywhere if it has no loop. -/
def State.abandonedIn (s : State) (i : Instr) (n k : Nat) : Result :=
  let u := { s.fetched n with arrival := none }
  match exec i u with
  | .next t =>
    let before := (loopProgress i (min k (passLimit - 1)) u).getD s
    let last := (loopProgress i (min k (passLimit - 1) + 1) u).getD t
    .next (s.cutAt before last t (betweenStores i u) (postbytesOf i))
  | .fault f => .fault f
  | .refused r => .refused r

/-- What the CPU is doing, abandoned: an instruction, the entry to an interrupt, the end of a wait (R662). -/
def State.abandoned (s : State) (k : Nat) : Result :=
  match s.runState with
  | .running =>
    match s.nextInterrupt with
    | some r => .next (s.cutAt s (s.interrupt r) (s.interrupt r) (pushStages s s.pc) [])
    | none =>
      match decode s.params.variant s.fetchBytes with
      | .ok (i, rest) => s.abandonedIn i (longestInstruction - rest.length) k
      | .error e => .refused (.undefinedEncoding e)
  | .waiting => .next (s.cutAt s s.waitingStep s.waitingStep [] [])
  | .stopped => .next (s.cutAt s s.stoppedStep s.stoppedStep [] [])
  | .background => .next s

/-- A reset that arrives in the middle of what the CPU does next, and the loop pass it arrives in (R662). -/
def State.arrivingReset (s : State) : Option (Nat × Request) :=
  match s.arrival with
  | none => none
  | some (k, r) => if isResetRequest r then some (k, r) else none

/-- The reset `r` taken in the middle of what the CPU is doing (R662): at once, by the sequence of R700. -/
def State.abandonedFor (s : State) (k : Nat) (r : Request) : Result :=
  match s.abandoned k with
  | .next t => .next ({ t with pending := s.pending, arrival := none }.takeReset r)
  | .fault f => .fault f
  | .refused e => .refused e

end Sys2Proof.Machine
end

