-- ==== Sys2Proof/Machine/Step.lean ====
section
/-! DEFINITION. One step of the machine (R19), and the placing of an instruction where the next step fetches. -/

namespace Sys2Proof.Machine

/-- One step: a pending reset is taken whatever the CPU is doing (R662, R667), a reset that arrives in the middle of
what the CPU is doing is taken within it; else what the run state says. -/
def step (s : State) : Host.Outcome State Fault Refusal :=
  match s.nextReset with
  | some r => .next (s.takeReset r)
  | none =>
    match s.arrivingReset with
    | some (k, r) => s.abandonedFor k r
    | none => s.runStateStep

/-- The state with an instruction at PC, `w` numbered as the opcode table numbers it, and nothing older in the
instruction queue. -/
def State.withFetchWord (s : State) (nbits w : Nat) : State :=
  { s.placeBytes s.pc (tableBytes nbits w) with queue := [] }

end Sys2Proof.Machine
end

