-- ==== Sys2Proof/Safety.lean ====
section
/-! DEFINITION. The words the statements are written in: a good state, a state in which the next step runs an
instruction, what an instruction leaves unchanged, the flags it sets, the bytes it stores. -/

namespace Sys2Proof.Machine

/-- The invariant of the machine: both memories are in canonical form, and GPAGE has `GPAGE_BITS` bits (R58). -/
structure State.Inv (s : State) : Prop where
  mem : memWf s.mem = true
  gmem : memWf s.gmem = true
  gpage : s.gpage < 2 ^ s.params.gpageBits

/-- The next thing the CPU does is an instruction: it is Running, no reset is pending and no pending interrupt is
enabled (R19, R667). -/
structure State.Ready (s : State) : Prop where
  running : s.runState = .running
  reset : s.nextReset = none
  interrupt : s.nextInterrupt = none

/-- Nothing asks for attention before the next instruction or in the middle of it: the CPU is Running, no reset is
pending, no pending interrupt is enabled and no reset arrives (R19, R662, R667). -/
structure State.Quiet (s : State) : Prop extends s.Ready where
  undisturbed : s.arrivingReset = none

/-- The instruction completes with its own effect: `exec` answers a next state, and `post` holds of it. -/
def Runs (i : Instr) (s : State) (post : State → Prop) : Prop := ∃ t, exec i s = .next t ∧ post t

/-! ### What stays -/

/-- The pieces of state. -/
inductive Part where
  | a | b | x | y | sp | pc | ccr | ccrh | ppage | gpage | tmp1 | tmp2 | tmp3 | mem | gmem | devices | runState
  | pending | queue | refilled | arrival | wavFrames | fresh | params
  deriving DecidableEq, Repr

/-- A piece of state is the same in two states. -/
def Part.same : Part → State → State → Prop
  | .a, s, t => t.a = s.a
  | .b, s, t => t.b = s.b
  | .x, s, t => t.x = s.x
  | .y, s, t => t.y = s.y
  | .sp, s, t => t.sp = s.sp
  | .pc, s, t => t.pc = s.pc
  | .ccr, s, t => t.ccr = s.ccr
  | .ccrh, s, t => t.ccrh = s.ccrh
  | .ppage, s, t => t.ppage = s.ppage
  | .gpage, s, t => t.gpage = s.gpage
  | .tmp1, s, t => t.tmp1 = s.tmp1
  | .tmp2, s, t => t.tmp2 = s.tmp2
  | .tmp3, s, t => t.tmp3 = s.tmp3
  | .mem, s, t => t.mem = s.mem
  | .gmem, s, t => t.gmem = s.gmem
  | .devices, s, t => t.devices = s.devices
  | .runState, s, t => t.runState = s.runState
  | .pending, s, t => t.pending = s.pending
  | .queue, s, t => t.queue = s.queue
  | .refilled, s, t => t.refilled = s.refilled
  | .arrival, s, t => t.arrival = s.arrival
  | .wavFrames, s, t => t.wavFrames = s.wavFrames
  | .fresh, s, t => t.fresh = s.fresh
  | .params, s, t => t.params = s.params

/-- Every piece of state but the named ones is as before. -/
def Unchanged (except : List Part) (before after : State) : Prop := ∀ p, p ∉ except → p.same before after

/-- The pieces of state an accumulator is. -/
def Reg8.parts : Reg8 → List Part
  | .a => [.a]
  | .b => [.b]

/-- The pieces of state a 16-bit register is. -/
def Reg16.parts : Reg16 → List Part
  | .d => [.a, .b]
  | .x => [.x]
  | .y => [.y]
  | .sp => [.sp]

/-- Every byte, at every logical and every global address, reads as before. -/
def ReadsAsBefore (before after : State) : Prop :=
  (∀ addr, after.read8 addr = before.read8 addr) ∧
    ∀ ea k, after.getPlace (after.globalPlaceAt ea k) = before.getPlace (before.globalPlaceAt ea k)

/-! ### Flags -/

/-- The listed flags have the listed values, and every other condition code bit is as before (R47). -/
def FlagsSet (set : List (Flag × Bool)) (before after : State) : Prop :=
  (∀ p ∈ set, after.flag p.1 = p.2) ∧ ∀ f, (∀ p ∈ set, p.1 ≠ f) → after.flag f = before.flag f

/-- N and Z of a value. -/
def nzOf {w : Nat} (r : BitVec w) : List (Flag × Bool) := [(.n, r.msb), (.z, decide (r.toNat = 0))]

/-- N and Z of a value, V cleared: `LOGIC8` and `LOGIC16` (R16). -/
def logicFlags {w : Nat} (r : BitVec w) : List (Flag × Bool) := (.v, false) :: nzOf r

/-- The flags of an addition of `w`-bit values (R14), V as signed overflow and C as carry of the exact sums. -/
def addFlags {w : Nat} (a m : BitVec w) (cin : Bool) : List (Flag × Bool) :=
  let sum : Nat := a.toNat + m.toNat + cin.toNat
  let exact : Int := a.toInt + m.toInt + (cin.toNat : Int)
  [(.n, decide (2 ^ (w - 1) ≤ sum % 2 ^ w)), (.z, decide (sum % 2 ^ w = 0)),
    (.v, decide (exact < -(2 ^ (w - 1)) ∨ 2 ^ (w - 1) ≤ exact)), (.c, decide (2 ^ w ≤ sum))]

/-- The flags of a subtraction of `w`-bit values (R15), V as signed overflow and C as borrow of the exact
differences. -/
def subFlags {w : Nat} (a m : BitVec w) (bin : Bool) : List (Flag × Bool) :=
  let diff : Int := (a.toNat : Int) - m.toNat - (bin.toNat : Int)
  let exact : Int := a.toInt - m.toInt - (bin.toNat : Int)
  [(.n, decide (2 ^ (w - 1) ≤ diff % 2 ^ w)), (.z, decide (diff % 2 ^ w = 0)),
    (.v, decide (exact < -(2 ^ (w - 1)) ∨ 2 ^ (w - 1) ≤ exact)), (.c, decide (a.toNat < m.toNat + bin.toNat))]

/-- The same flags with Z under `ExtZMode`, `zOld` the Z from before (R304). -/
def underExtZ (mode : ExtZMode) (zOld : Bool) (flags : List (Flag × Bool)) : List (Flag × Bool) :=
  flags.map fun p => if p.1 = .z ∧ mode = .sticky then (.z, zOld && p.2) else p

/-- The flags of a shift with result `r` and the bit shifted out in C: V is N xor C (R471). -/
def shiftFlags {w : Nat} (r : BitVec w) (c : Bool) : List (Flag × Bool) := (.c, c) :: (.v, r.msb ^^ c) :: nzOf r

/-! ### Results and stores -/

/-- The instruction puts `v` into an accumulator, sets `flags`, and does nothing else to the state `u` that its
operand leaves. -/
structure Gives8 (r : Reg8) (v : Byte) (flags : List (Flag × Bool)) (u t : State) : Prop where
  value : t.get8 r = v
  flags : FlagsSet flags u t
  rest : Unchanged (.ccr :: r.parts) u t
  memory : ReadsAsBefore u t

/-- The instruction puts `v` into a 16-bit register, sets `flags`, and does nothing else to the state `u` that its
operand leaves. -/
structure Gives16 (r : Reg16) (v : Word) (flags : List (Flag × Bool)) (u t : State) : Prop where
  value : t.get16 r = v
  flags : FlagsSet flags u t
  rest : Unchanged (.ccr :: r.parts) u t
  memory : ReadsAsBefore u t

/-- The instruction sets `flags` and does nothing else to the state `u` that its operand leaves. -/
structure GivesFlags (flags : List (Flag × Bool)) (u t : State) : Prop where
  flags : FlagsSet flags u t
  rest : Unchanged [.ccr] u t
  memory : ReadsAsBefore u t

/-- The byte a list of stores leaves at a place: that of its last store there. -/
def lastByte : List (Place × Byte) → Place → Option Byte
  | [], _ => none
  | (q, v) :: rest, p =>
    match lastByte rest p with
    | some w => some w
    | none => if q = p then some v else none

/-- The state of the devices after the listed bytes are written, in order, those that go to a device (D3). -/
def devicesAfter (fresh : Nat) : List (Place × Byte) → Nat → Nat
  | [], d => d
  | (.device reg, v) :: rest, d => devicesAfter fresh rest (Config.deviceAfterWrite fresh reg d v)
  | _ :: rest, d => devicesAfter fresh rest d

/-- Whether a store to the second place can change what the first reads as: they share a byte of memory, or both are
registers of the devices, which share one state. -/
def Place.overlaps : Place → Place → Bool
  | .cell l, .cell m | .rom l, .cell m => l == m
  | .globalCell l, .globalCell m | .globalRom l, .globalCell m => l == m
  | .device _, .device _ => true
  | .ppageReg, .ppageReg => true
  | .gpageReg, .gpageReg => true
  | _, _ => false

/-- Memory after the stores of the listed bytes, in order, to the listed places, and no other store. -/
structure Stored (stores : List (Place × Byte)) (u t : State) : Prop where
  mem : ∀ loc, memGet t.mem loc = (lastByte stores (.cell loc)).getD (memGet u.mem loc)
  gmem : ∀ loc, memGet t.gmem loc = (lastByte stores (.globalCell loc)).getD (memGet u.gmem loc)
  ppage : t.ppage = (lastByte stores .ppageReg).getD u.ppage
  gpage : t.gpage = ((lastByte stores .gpageReg).map fun v => v.toNat % 2 ^ u.params.gpageBits).getD u.gpage
  devices : t.devices = devicesAfter u.fresh stores u.devices
  /-- Every address outside the stored bytes reads as before, unless the store changed the page. -/
  read : (∀ p ∈ stores, p.1 ≠ .ppageReg) →
    ∀ addr, (∀ p ∈ stores, (u.place addr).overlaps p.1 = false) → t.read8 addr = u.read8 addr

/-- The two stores of a word at a logical address: the high-order byte first (R81). -/
def wordStores (u : State) (addr : Word) (v : Word) : List (Place × Byte) :=
  [(u.place addr, v.high), (u.place (addr + 1), v.low)]

/-- The instruction makes the listed stores, sets `flags`, and does nothing else to the state `u` that its operand
leaves. -/
structure GivesStores (stores : List (Place × Byte)) (flags : List (Flag × Bool)) (u t : State) : Prop where
  stored : Stored stores u t
  flags : FlagsSet flags u t
  rest : Unchanged [.ccr, .mem, .gmem, .ppage, .gpage, .devices] u t

/-- The instruction stores the byte `v` at `addr`, sets `flags`, and does nothing else. -/
abbrev GivesByte (addr : Word) (v : Byte) (flags : List (Flag × Bool)) (u t : State) : Prop :=
  GivesStores [(u.place addr, v)] flags u t

/-- The instruction stores the word `v` at `addr`, sets `flags`, and does nothing else. -/
abbrev GivesWord (addr : Word) (v : Word) (flags : List (Flag × Bool)) (u t : State) : Prop :=
  GivesStores (wordStores u addr v) flags u t

/-- The two stores of a word at a global effective address: the second byte at the next global address (R84). -/
def globalWordStores (u : State) (ea : Word) (v : Word) : List (Place × Byte) :=
  [(u.globalPlaceAt ea 0, v.high), (u.globalPlaceAt ea 1, v.low)]

/-- A value pushed: SP falls by `n`, the bytes are stored from the new SP on, and nothing else happens (R12). -/
structure Pushes (n : Word) (stores : List (Place × Byte)) (s t : State) : Prop where
  sp : t.sp = s.sp - n
  stored : Stored stores s t
  rest : Unchanged [.sp, .mem, .gmem, .ppage, .gpage, .devices] s t

/-- What a store of a 16-bit register may write: the register, or, where the operand auto-modifies that register, its
value from before or from after the update (R140 point 3, U9). -/
def StorableValue (r : Reg16) (ea : Ea) (s : State) (v : Word) : Prop :=
  (v = s.get16 r ∨ v = (eaAfter ea s).get16 r) ∧ (eaModified ea ≠ some r → v = s.get16 r)

/-- The byte that the operand names becomes `result` of it, with the flags `flags` of it. -/
def ByteBecomes (ea : Ea) (result : Byte → Byte) (flags : Byte → List (Flag × Bool)) (s t : State) : Prop :=
  GivesByte (eaAddress ea s) (result (memByte ea s)) (flags (memByte ea s)) (afterMemByte ea s) t

/-- The word that the operand names becomes `result` of it, with the flags `flags` of it. -/
def WordBecomes (ea : Ea) (result : Word → Word) (flags : Word → List (Flag × Bool)) (s t : State) : Prop :=
  GivesWord (eaAddress ea s) (result (memWord ea s)) (flags (memWord ea s)) (afterMemWord ea s) t

/-- An accumulator becomes `result` of it, with the flags `flags` of it. -/
def Reg8Becomes (r : Reg8) (result : Byte → Byte) (flags : Byte → List (Flag × Bool)) (s t : State) : Prop :=
  Gives8 r (result (s.get8 r)) (flags (s.get8 r)) s t

/-- A 16-bit register becomes `result` of it, with the flags `flags` of it. -/
def Reg16Becomes (r : Reg16) (result : Word → Word) (flags : Word → List (Flag × Bool)) (s t : State) : Prop :=
  Gives16 r (result (s.get16 r)) (flags (s.get16 r)) s t

/-- The listed flags are as before. -/
def FlagsKept (kept : List Flag) (before after : State) : Prop := ∀ f ∈ kept, after.flag f = before.flag f

/-! ### Arithmetic on the numbers that the words stand for -/

/-- The sum of two words and a carry, modulo `2^w` (R14). -/
def plus {w : Nat} (a m : BitVec w) (cin : Bool) : BitVec w := BitVec.ofNat w (a.toNat + m.toNat + cin.toNat)

/-- The difference of two words and a borrow, modulo `2^w` (R15). -/
def minus {w : Nat} (a m : BitVec w) (bin : Bool) : BitVec w :=
  BitVec.ofInt w ((a.toNat : Int) - m.toNat - (bin.toNat : Int))

/-- The carry out of bit 3 of an 8-bit addition (R14). -/
def nibbleCarry (a m : Byte) (cin : Bool) : Bool := decide (15 < a.toNat % 16 + m.toNat % 16 + cin.toNat)

/-- N, Z and V after an increment of the value `a` (R305). -/
def incFlags {w : Nat} (a : BitVec w) : List (Flag × Bool) :=
  (.v, decide (a.toNat = 2 ^ (w - 1) - 1)) :: nzOf (plus a 1 false)

/-- N, Z and V after a decrement of the value `a` (R305). -/
def decFlags {w : Nat} (a : BitVec w) : List (Flag × Bool) :=
  (.v, decide (a.toNat = 2 ^ (w - 1))) :: nzOf (minus a 1 false)

/-- The most significant bit. -/
def topBit {w : Nat} (a : BitVec w) : Bool := decide (2 ^ (w - 1) ≤ a.toNat)

/-- Bit 0. -/
def lowBit {w : Nat} (a : BitVec w) : Bool := decide (a.toNat % 2 = 1)

/-- ASL and LSL: twice the value (R471). -/
def shiftedLeft {w : Nat} (a : BitVec w) : BitVec w := BitVec.ofNat w (2 * a.toNat)

/-- LSR: half the unsigned value (R471). -/
def shiftedRight {w : Nat} (a : BitVec w) : BitVec w := BitVec.ofNat w (a.toNat / 2)

/-- ASR: half the signed value, rounded down (R471). -/
def halved {w : Nat} (a : BitVec w) : BitVec w := BitVec.ofInt w (a.toInt / 2)

/-- ROL: the old carry enters at the bottom (R471). -/
def rotatedLeft {w : Nat} (c : Bool) (a : BitVec w) : BitVec w := BitVec.ofNat w (2 * a.toNat + c.toNat)

/-- ROR: the old carry enters at the top (R471). -/
def rotatedRight {w : Nat} (c : Bool) (a : BitVec w) : BitVec w :=
  BitVec.ofNat w (a.toNat / 2 + c.toNat * 2 ^ (w - 1))

/-! ### Changes of flow -/

/-- PC takes the target if the condition holds and stays `PCnext` if not, a branch taken is a change of flow whatever
its target, and nothing else happens (R570, R711). -/
structure Branches (cond : Bool) (target : Word) (u t : State) : Prop where
  pc : t.pc = if cond then target else u.pc
  refilled : t.refilled = (cond || u.refilled)
  rest : Unchanged [.pc, .refilled] u t
  memory : ReadsAsBefore u t

/-- The target of a relative branch: the signed offset added to `PCnext` modulo 2^16 (R571, R572). -/
def relative {w : Nat} (s : State) (offset : BitVec w) : Word := BitVec.ofInt 16 (s.pc.toNat + offset.toInt)

/-- The width of the counter of a loop primitive (R612). -/
def loopWidth : LoopReg → Nat
  | .a | .b => 8
  | .d | .x | .y | .sp => 16

/-- The counter of a loop primitive as a number (R612). -/
def loopValue : LoopReg → State → Nat
  | .a, s => s.a.toNat
  | .b, s => s.b.toNat
  | .d, s => s.d.toNat
  | .x, s => s.x.toNat
  | .y, s => s.y.toNat
  | .sp, s => s.sp.toNat

/-- The pieces of state the counter of a loop primitive is. -/
def loopParts : LoopReg → List Part
  | .a => [.a]
  | .b => [.b]
  | .d => [.a, .b]
  | .x => [.x]
  | .y => [.y]
  | .sp => [.sp]

/-- A loop primitive: the counter becomes `count`, PC branches on `cond`, and nothing else happens (R612 to R617,
R711). -/
structure Loops (r : LoopReg) (count : Nat) (cond : Bool) (offset : BitVec 9) (s t : State) : Prop where
  count : loopValue r t = count
  pc : t.pc = if cond then relative s offset else s.pc
  refilled : t.refilled = (cond || s.refilled)
  rest : Unchanged (.pc :: .refilled :: loopParts r) s t
  memory : ReadsAsBefore s t

/-! ### The condition codes written as a whole -/

/-- `WriteCCR(v)` (R17): every flag takes its bit of `v`, but X takes it only if X was set. -/
def CcrLoaded (v : Byte) (before after : State) : Prop :=
  ∀ f, after.flag f = if f = .x then flagOf v .x && before.flag .x else flagOf v f

/-- CCRH written under `CCRH_WMASK` (R17): every bit of the mask takes its bit of `v`, the others stay. -/
def CcrhLoaded (v : Byte) (before after : State) : Prop :=
  ∀ k, k < 8 →
    after.ccrh.getLsbD k = if before.params.ccrhWmask.getLsbD k then v.getLsbD k else before.ccrh.getLsbD k

/-! ### Exceptions -/

/-- The stores of a frame, from the return address down (R668 to R670). -/
def frameStores (s : State) (rtn : Word) : List (Place × Byte) :=
  wordStores s (s.sp - 2) rtn ++ wordStores s (s.sp - 4) s.y ++ wordStores s (s.sp - 6) s.x ++
    wordStores s (s.sp - 8) (wordOf s.b s.a) ++
    match s.params.variant with
    | .hcs12 => [(s.place (s.sp - 9), s.ccr)]
    | .hcs12x => wordStores s (s.sp - 10) (wordOf s.ccrh s.ccr)

/-- No byte of the frame is the register PPAGE, so that the page stays while the frame is pushed. -/
def State.FrameClear (s : State) : Prop := ∀ k, k ≤ 10 → s.place (s.sp - BitVec.ofNat 16 k) ≠ .ppageReg

/-- A frame pushed (R668): SP falls by its size, its bytes are stored, and every flag is as before. -/
structure Stacked (rtn : Word) (s t : State) : Prop where
  sp : t.sp = s.sp - frameSize s.params.variant
  stored : s.FrameClear → Stored (frameStores s rtn) s t

/-- An exception taken (R668): the vector read, then the frame pushed, I set (and X for XIRQ), PC the word the vector
held before the pushes, the CPU Running, the flow changed (R711), and nothing else changed. -/
structure Entered (vec : Word) (isXirq : Bool) (rtn : Word) (s t : State) : Prop where
  stacked : Stacked rtn (s.touchedVector vec) t
  pc : t.pc = s.readVector vec
  flags : FlagsSet ((.i, true) :: if isXirq then [(.x, true)] else []) s t
  running : t.runState = .running
  refilled : t.refilled = true
  rest : Unchanged [.sp, .pc, .ccr, .mem, .ppage, .gpage, .devices, .runState, .refilled] s t

/-! ### What a step adds to an instruction -/

/-- What a step that ran the instruction `i` from `s`, the next one in memory at `pcnext`, adds to the state `t` that
`exec` gave (R59, R61, R91, R711, R712): a change of flow empties the queue whatever its target, and an old byte in the
queue is one that lies near the next instruction and has changed. -/
structure StepAdds (i : Instr) (pcnext : Word) (s t u : State) : Prop where
  same : Unchanged [.tmp1, .tmp2, .tmp3, .queue, .refilled, .fresh] t u
  fresh : u.fresh = t.fresh + 1
  kept : keepsTemporaries i = true → u.tmp1 = t.tmp1 ∧ u.tmp2 = t.tmp2 ∧ u.tmp3 = t.tmp3
  settled : u.refilled = false
  refilled : hasCommas i = false → t.refilled = true → u.queue = []
  queue : hasCommas i = false → ∀ e ∈ u.queue,
    inWindow pcnext s.params.queueDepth e.1 = true ∧
      (e ∈ s.queue ∨ e.2 = s.read8 e.1 ∧ t.getPlace (s.place e.1) ≠ s.getPlace (s.place e.1))

/-! ### Resets -/

/-- The element of state has the value that `ResetValues` gives it, and else the value it had (D8). -/
def GivenOr {α : Type} (given : Option α) (old new : α) : Prop := new = given.getD old

/-- The reset `r` taken from the state `c` (R65, R662, R700): S, X and I are 1, PC is the word at the vector in the
memory that the reset leaves, the CPU is Running, the request is consumed, and each element of `ResetValues` that is
given has its value. One that is not given stays, but for TMP1 to TMP3 (log entry 5). -/
structure ResetTaken (r : Request) (c t : State) : Prop where
  masks : t.flag .s = true ∧ t.flag .x = true ∧ t.flag .i = true
  pc : t.pc = (c.withResetValues c.params.resetValues).readVector (vectorOf r)
  running : t.runState = .running
  pending : ∀ q, q ∈ t.pending ↔ q ∈ c.pending ∧ q ≠ r
  a : GivenOr c.params.resetValues.a c.a t.a
  b : GivenOr c.params.resetValues.b c.b t.b
  x : GivenOr c.params.resetValues.x c.x t.x
  y : GivenOr c.params.resetValues.y c.y t.y
  sp : GivenOr c.params.resetValues.sp c.sp t.sp
  ccrh : GivenOr c.params.resetValues.ccrh c.ccrh t.ccrh
  ppage : GivenOr c.params.resetValues.ppage c.ppage t.ppage
  gpage : c.gpage < 2 ^ c.params.gpageBits →
    GivenOr (c.params.resetValues.gpage.map (· % 2 ^ c.params.gpageBits)) c.gpage t.gpage
  tmp1 : ∀ v, c.params.resetValues.tmp1 = some v → t.tmp1 = v
  tmp2 : ∀ v, c.params.resetValues.tmp2 = some v → t.tmp2 = v
  tmp3 : ∀ v, c.params.resetValues.tmp3 = some v → t.tmp3 = v
  flagH : GivenOr c.params.resetValues.h (c.flag .h) (t.flag .h)
  flagN : GivenOr c.params.resetValues.n (c.flag .n) (t.flag .n)
  flagZ : GivenOr c.params.resetValues.z (c.flag .z) (t.flag .z)
  flagV : GivenOr c.params.resetValues.v (c.flag .v) (t.flag .v)
  flagC : GivenOr c.params.resetValues.c (c.flag .c) (t.flag .c)
  mem : GivenOr (c.params.resetValues.mem.map memOfCells) c.mem t.mem
  gmem : GivenOr (c.params.resetValues.gmem.map memOfCells) c.gmem t.gmem

/-- The state `c` in which what began in `s` and would have led to `t` is abandoned, an instruction without a loop or
another thing the CPU does (R662, D8): each flag and register has its value from before, from after, or, for X, Y and
SP, one that it passes through; memory and the page registers are those of one of the states between the stores, so
that a first part of the stores in program order is made (R82, R92). -/
structure PartWay (postbytes : List Xb) (between : List State) (s t c : State) : Prop where
  a : c.a = s.a ∨ c.a = t.a
  b : c.b = s.b ∨ c.b = t.b
  x : c.x ∈ s.x :: t.x :: autoValues .x postbytes s.x
  y : c.y ∈ s.y :: t.y :: autoValues .y postbytes s.y
  sp : c.sp ∈ s.sp :: t.sp :: autoValues .sp postbytes s.sp ++
    stackPath ((autoValues .sp postbytes s.sp).getLastD s.sp) t.sp
  flags : ∀ f, c.flag f = s.flag f ∨ c.flag f = t.flag f
  ccrh : c.ccrh = s.ccrh ∨ c.ccrh = t.ccrh
  memory : ∃ m ∈ s :: between ++ [t], c.mem = m.mem ∧ c.gmem = m.gmem ∧ c.ppage = m.ppage ∧ c.gpage = m.gpage
  devices : t.devices = s.devices → c.devices = s.devices
  pending : c.pending = s.pending
  params : c.params = s.params

/-! ### What the lists of the platform say -/

/-- An element of a list that has a property, none before it having it. -/
def FirstHolding {α : Type} (holds : α → Prop) (xs : List α) (x : α) : Prop :=
  ∃ first later, xs = first ++ x :: later ∧ holds x ∧ ∀ y ∈ first, ¬ holds y

/-- A region of `MemMap` holds the address (D3). -/
def InRegion (addr : Nat) (g : Region) : Prop := g.lo ≤ addr ∧ addr ≤ g.hi

/-- A page window holds the address while PPAGE is `page` (D4). -/
def InPageWindow (page : Byte) (addr : Nat) (w : PageWindow) : Prop :=
  (w.lo ≤ addr ∧ addr ≤ w.hi) ∧ w.pageLo ≤ page.toNat ∧ page.toNat ≤ w.pageHi

/-- A window of `GlobalTranslate` holds the concatenation GPAGE:address (D5). -/
def InTranslateWindow (c : Nat) (w : TranslateWindow) : Prop := w.lo ≤ c ∧ c ≤ w.hi

/-- A global window holds the global address (D5). -/
def InGlobalWindow (g : Nat) (w : GlobalWindow) : Prop := w.lo ≤ g ∧ g ≤ w.hi

/-! ### A platform without paging, where every address is memory -/

/-- The `n` logical bytes from `addr` on are plain memory at the location of their address. -/
def State.PlainRam (s : State) (addr : Word) (n : Nat) : Prop :=
  ∀ k, k < n → s.place (addr + BitVec.ofNat 16 k) = .cell (addr + BitVec.ofNat 16 k).toNat

/-- Every logical address is plain memory at the location of its number. -/
def State.Flat (s : State) : Prop := ∀ addr, s.place addr = .cell addr.toNat

/-- None of the `n` logical bytes from `addr` on is a register of a device. -/
def State.NoDevice (s : State) (addr : Word) (n : Nat) : Prop :=
  ∀ k, k < n → ∀ reg, s.place (addr + BitVec.ofNat 16 k) ≠ .device reg

/-! ### The registers of transfers -/

/-- The piece of state and the value of an 8-bit transfer register. -/
def byteRegValue : ByteReg → State → Byte
  | .a, s => s.a
  | .b, s => s.b
  | .ccr, s => s.ccr

/-- The value of a 16-bit transfer register. -/
def wideRegValue : WideReg → State → Word
  | .d, s => s.d
  | .x, s => s.x
  | .y, s => s.y
  | .sp, s => s.sp

/-- The pieces of state a 16-bit transfer register is. -/
def wideRegParts : WideReg → List Part
  | .d => [.a, .b]
  | .x => [.x]
  | .y => [.y]
  | .sp => [.sp]

/-- The pieces of state that hold the registers a transfer or an exchange can reach. -/
def transferParts : List Part := [.a, .b, .x, .y, .sp, .ccr, .ccrh, .tmp1, .tmp2, .tmp3]

/-! ### The tables of transfers and exchanges -/

/-- What a cell of the tables R266 to R269 names: a register, or the high or low byte of one; `ccr` is CCRL on HCS12X.
-/
inductive CellReg where
  | a | b | ccr | ccrh | ccrw | d | x | y | sp | tmp1 | tmp2 | tmp3
  | xHigh | xLow | yHigh | yLow | spHigh | spLow | tmp2High | tmp2Low | tmp3High | tmp3Low
  deriving DecidableEq, Repr

/-- The left side of an arrow: a register, `sex:` of a byte, `$00:` or `$FF:` before a byte, `sex:D`, or `$FF`. -/
inductive CellValue where
  | reg (r : CellReg)
  | sex (r : CellReg)
  | zero (r : CellReg)
  | ones (r : CellReg)
  | signs (r : CellReg)
  | allOnes
  deriving DecidableEq, Repr

/-- A cell: each value with the register that takes it. `P ⇔ Q` stands as two of them. -/
abbrev Cell : Type := List (CellValue × CellReg)

/-- A named register as a number. -/
def CellReg.value : CellReg → State → Nat
  | .a, s => s.a.toNat
  | .b, s => s.b.toNat
  | .ccr, s => s.ccr.toNat
  | .ccrh, s => s.ccrh.toNat
  | .ccrw, s => 256 * s.ccrh.toNat + s.ccr.toNat
  | .d, s => 256 * s.a.toNat + s.b.toNat
  | .x, s => s.x.toNat
  | .y, s => s.y.toNat
  | .sp, s => s.sp.toNat
  | .tmp1, s => s.tmp1.toNat
  | .tmp2, s => s.tmp2.toNat
  | .tmp3, s => s.tmp3.toNat
  | .xHigh, s => s.x.toNat / 256
  | .xLow, s => s.x.toNat % 256
  | .yHigh, s => s.y.toNat / 256
  | .yLow, s => s.y.toNat % 256
  | .spHigh, s => s.sp.toNat / 256
  | .spLow, s => s.sp.toNat % 256
  | .tmp2High, s => s.tmp2.toNat / 256
  | .tmp2Low, s => s.tmp2.toNat % 256
  | .tmp3High, s => s.tmp3.toNat / 256
  | .tmp3Low, s => s.tmp3.toNat % 256

/-- The value of a left side: `sex:` copies bit 7 of the byte upward, `sex:D` is sixteen copies of bit 15 (R266,
R267). -/
def CellValue.value : CellValue → State → Nat
  | .reg r, s => r.value s
  | .sex r, s => if r.value s < 128 then r.value s else 0xFF00 + r.value s
  | .zero r, s => r.value s
  | .ones r, s => 0xFF00 + r.value s
  | .signs r, s => if r.value s < 0x8000 then 0 else 0xFFFF
  | .allOnes, _ => 0xFF

/-- The piece of state that a named register lies in. -/
def CellReg.parts : CellReg → List Part
  | .a => [.a]
  | .b => [.b]
  | .ccr => [.ccr]
  | .ccrh => [.ccrh]
  | .ccrw => [.ccr, .ccrh]
  | .d => [.a, .b]
  | .x | .xHigh | .xLow => [.x]
  | .y | .yHigh | .yLow => [.y]
  | .sp | .spHigh | .spLow => [.sp]
  | .tmp1 => [.tmp1]
  | .tmp2 | .tmp2High | .tmp2Low => [.tmp2]
  | .tmp3 | .tmp3High | .tmp3Low => [.tmp3]

/-- A named register takes a value: CCR as `WriteCCR` and CCRH under its mask (R17); a byte of a 16-bit register
changes that byte only. -/
def CellReg.Takes (r : CellReg) (v : Nat) (s t : State) : Prop :=
  match r with
  | .ccr => CcrLoaded (BitVec.ofNat 8 v) s t
  | .ccrh => CcrhLoaded (BitVec.ofNat 8 v) s t
  | .ccrw => CcrhLoaded (BitVec.ofNat 8 (v / 256)) s t ∧ CcrLoaded (BitVec.ofNat 8 v) s t
  | .xHigh => t.x.toNat = 256 * v + s.x.toNat % 256
  | .xLow => t.x.toNat = 256 * (s.x.toNat / 256) + v
  | .yHigh => t.y.toNat = 256 * v + s.y.toNat % 256
  | .yLow => t.y.toNat = 256 * (s.y.toNat / 256) + v
  | .spHigh => t.sp.toNat = 256 * v + s.sp.toNat % 256
  | .spLow => t.sp.toNat = 256 * (s.sp.toNat / 256) + v
  | .tmp2High => t.tmp2.toNat = 256 * v + s.tmp2.toNat % 256
  | .tmp2Low => t.tmp2.toNat = 256 * (s.tmp2.toNat / 256) + v
  | .tmp3High => t.tmp3.toNat = 256 * v + s.tmp3.toNat % 256
  | .tmp3Low => t.tmp3.toNat = 256 * (s.tmp3.toNat / 256) + v
  | .a | .b | .d | .x | .y | .sp | .tmp1 | .tmp2 | .tmp3 => r.value t = v

/-- A cell carried out: every register takes its value from before the instruction, and nothing else changes. -/
structure CellDone (cell : Cell) (s t : State) : Prop where
  taken : ∀ p ∈ cell, p.2.Takes (p.1.value s) s t
  rest : Unchanged (cell.flatMap fun p => p.2.parts) s t

/-- The table of R266, transfers with bit 3 clear: the row of a second register, its cells by first register. -/
def transferRow : XferReg → List Cell
  | .a =>
    [[(.reg .a, .a)], [(.reg .b, .a)], [(.reg .ccr, .a)], [(.reg .tmp3Low, .a)], [(.reg .b, .a)],
      [(.reg .xLow, .a)], [(.reg .yLow, .a)], [(.reg .spLow, .a)]]
  | .b =>
    [[(.reg .a, .b)], [(.reg .b, .b)], [(.reg .ccr, .b)], [(.reg .tmp3Low, .b)], [(.reg .b, .b)],
      [(.reg .xLow, .b)], [(.reg .yLow, .b)], [(.reg .spLow, .b)]]
  | .ccr =>
    [[(.reg .a, .ccr)], [(.reg .b, .ccr)], [(.reg .ccr, .ccr)], [(.reg .tmp3Low, .ccr)], [(.reg .b, .ccr)],
      [(.reg .xLow, .ccr)], [(.reg .yLow, .ccr)], [(.reg .spLow, .ccr)]]
  | .tmp =>
    [[(.sex .a, .tmp2)], [(.sex .b, .tmp2)], [(.sex .ccr, .tmp2)], [(.reg .tmp3, .tmp2)], [(.reg .d, .tmp2)],
      [(.reg .x, .tmp2)], [(.reg .y, .tmp2)], [(.reg .sp, .tmp2)]]
  | .d =>
    [[(.sex .a, .d)], [(.sex .b, .d)], [(.sex .ccr, .d)], [(.reg .tmp3, .d)], [(.reg .d, .d)], [(.reg .x, .d)],
      [(.reg .y, .d)], [(.reg .sp, .d)]]
  | .x =>
    [[(.sex .a, .x)], [(.sex .b, .x)], [(.sex .ccr, .x)], [(.reg .tmp3, .x)], [(.reg .d, .x)], [(.reg .x, .x)],
      [(.reg .y, .x)], [(.reg .sp, .x)]]
  | .y =>
    [[(.sex .a, .y)], [(.sex .b, .y)], [(.sex .ccr, .y)], [(.reg .tmp3, .y)], [(.reg .d, .y)], [(.reg .x, .y)],
      [(.reg .y, .y)], [(.reg .sp, .y)]]
  | .sp =>
    [[(.sex .a, .sp)], [(.sex .b, .sp)], [(.sex .ccr, .sp)], [(.reg .tmp3, .sp)], [(.reg .d, .sp)],
      [(.reg .x, .sp)], [(.reg .y, .sp)], [(.reg .sp, .sp)]]

/-- The table of R267, transfers with bit 3 set. -/
def transferRowAlt : XferReg → List Cell
  | .a =>
    [[(.reg .a, .a)], [(.reg .b, .a)], [(.reg .ccrh, .a)], [(.reg .tmp3High, .a)], [(.reg .b, .a)],
      [(.reg .xHigh, .a)], [(.reg .yHigh, .a)], [(.reg .spHigh, .a)]]
  | .b =>
    [[(.reg .a, .b)], [(.reg .b, .b)], [(.reg .ccr, .b)], [(.reg .tmp3Low, .b)], [(.reg .b, .b)],
      [(.reg .xLow, .b)], [(.reg .yLow, .b)], [(.reg .spLow, .b)]]
  | .ccr =>
    [[(.reg .a, .ccrh)], [(.reg .b, .ccr)], [(.reg .ccrw, .ccrw)], [(.reg .tmp3, .ccrw)], [(.reg .d, .ccrw)],
      [(.reg .x, .ccrw)], [(.reg .y, .ccrw)], [(.reg .sp, .ccrw)]]
  | .tmp =>
    [[(.reg .a, .tmp2High)], [(.reg .b, .tmp2Low)], [(.reg .ccrw, .tmp2)], [(.reg .tmp3, .tmp2)],
      [(.reg .d, .tmp1)], [(.reg .x, .tmp2)], [(.reg .y, .tmp2)], [(.reg .sp, .tmp2)]]
  | .d =>
    [[(.sex .a, .d)], [(.sex .b, .d)], [(.reg .ccrw, .d)], [(.reg .tmp1, .d)], [(.reg .d, .d)], [(.reg .x, .d)],
      [(.reg .y, .d)], [(.reg .sp, .d)]]
  | .x =>
    [[(.reg .a, .xHigh)], [(.reg .b, .xLow)], [(.reg .ccrw, .x)], [(.reg .tmp3, .x)], [(.signs .d, .x)],
      [(.reg .x, .x)], [(.reg .y, .x)], [(.reg .sp, .x)]]
  | .y =>
    [[(.reg .a, .yHigh)], [(.reg .b, .yLow)], [(.reg .ccrw, .y)], [(.reg .tmp3, .y)], [(.signs .d, .y)],
      [(.reg .x, .y)], [(.reg .y, .y)], [(.reg .sp, .y)]]
  | .sp =>
    [[(.reg .a, .spHigh)], [(.reg .b, .spLow)], [(.reg .ccrw, .sp)], [(.reg .tmp3, .sp)], [(.reg .d, .sp)],
      [(.reg .x, .sp)], [(.reg .y, .sp)], [(.reg .sp, .sp)]]

/-- The table of R268, exchanges with bit 3 clear. -/
def exchangeRow : XferReg → List Cell
  | .a =>
    [[(.reg .a, .a)], [(.reg .b, .a), (.reg .a, .b)], [(.reg .ccr, .a), (.reg .a, .ccr)],
      [(.reg .tmp3Low, .a), (.zero .a, .tmp3)], [(.reg .b, .a), (.reg .a, .b)],
      [(.reg .xLow, .a), (.zero .a, .x)], [(.reg .yLow, .a), (.zero .a, .y)],
      [(.reg .spLow, .a), (.zero .a, .sp)]]
  | .b =>
    [[(.reg .a, .b), (.reg .b, .a)], [(.reg .b, .b)], [(.reg .ccr, .b), (.reg .b, .ccr)],
      [(.reg .tmp3Low, .b), (.ones .b, .tmp3)], [(.reg .b, .b), (.allOnes, .a)],
      [(.reg .xLow, .b), (.ones .b, .x)], [(.reg .yLow, .b), (.ones .b, .y)],
      [(.reg .spLow, .b), (.ones .b, .sp)]]
  | .ccr =>
    [[(.reg .a, .ccr), (.reg .ccr, .a)], [(.reg .b, .ccr), (.reg .ccr, .b)], [(.reg .ccr, .ccr)],
      [(.reg .tmp3Low, .ccr), (.ones .ccr, .tmp3)], [(.reg .b, .ccr), (.ones .ccr, .d)],
      [(.reg .xLow, .ccr), (.ones .ccr, .x)], [(.reg .yLow, .ccr), (.ones .ccr, .y)],
      [(.reg .spLow, .ccr), (.ones .ccr, .sp)]]
  | .tmp =>
    [[(.zero .a, .tmp2), (.reg .tmp2Low, .a)], [(.zero .b, .tmp2), (.reg .tmp2Low, .b)],
      [(.zero .ccr, .tmp2), (.reg .tmp2Low, .ccr)], [(.reg .tmp3, .tmp2), (.reg .tmp2, .tmp3)],
      [(.reg .d, .tmp2), (.reg .tmp2, .d)], [(.reg .x, .tmp2), (.reg .tmp2, .x)],
      [(.reg .y, .tmp2), (.reg .tmp2, .y)], [(.reg .sp, .tmp2), (.reg .tmp2, .sp)]]
  | .d =>
    [[(.zero .a, .d)], [(.zero .b, .d)], [(.zero .ccr, .d), (.reg .b, .ccr)],
      [(.reg .tmp3, .d), (.reg .d, .tmp3)], [(.reg .d, .d)], [(.reg .x, .d), (.reg .d, .x)],
      [(.reg .y, .d), (.reg .d, .y)], [(.reg .sp, .d), (.reg .d, .sp)]]
  | .x =>
    [[(.zero .a, .x), (.reg .xLow, .a)], [(.zero .b, .x), (.reg .xLow, .b)],
      [(.zero .ccr, .x), (.reg .xLow, .ccr)], [(.reg .tmp3, .x), (.reg .x, .tmp3)],
      [(.reg .d, .x), (.reg .x, .d)], [(.reg .x, .x)], [(.reg .y, .x), (.reg .x, .y)],
      [(.reg .sp, .x), (.reg .x, .sp)]]
  | .y =>
    [[(.zero .a, .y), (.reg .yLow, .a)], [(.zero .b, .y), (.reg .yLow, .b)],
      [(.zero .ccr, .y), (.reg .yLow, .ccr)], [(.reg .tmp3, .y), (.reg .y, .tmp3)],
      [(.reg .d, .y), (.reg .y, .d)], [(.reg .x, .y), (.reg .y, .x)], [(.reg .y, .y)],
      [(.reg .sp, .y), (.reg .y, .sp)]]
  | .sp =>
    [[(.zero .a, .sp), (.reg .spLow, .a)], [(.zero .b, .sp), (.reg .spLow, .b)],
      [(.zero .ccr, .sp), (.reg .spLow, .ccr)], [(.reg .tmp3, .sp), (.reg .sp, .tmp3)],
      [(.reg .d, .sp), (.reg .sp, .d)], [(.reg .x, .sp), (.reg .sp, .x)], [(.reg .y, .sp), (.reg .sp, .y)],
      [(.reg .sp, .sp)]]

/-- The table of R269, exchanges with bit 3 set. -/
def exchangeRowAlt : XferReg → List Cell
  | .a =>
    [[(.reg .a, .a)], [(.reg .b, .a), (.reg .a, .b)], [(.reg .ccrh, .a), (.reg .a, .ccrh)],
      [(.reg .tmp3High, .a), (.reg .a, .tmp3High)], [(.reg .b, .a), (.reg .a, .b)],
      [(.reg .xHigh, .a), (.reg .a, .xHigh)], [(.reg .yHigh, .a), (.reg .a, .yHigh)],
      [(.reg .spHigh, .a), (.reg .a, .spHigh)]]
  | .b =>
    [[(.reg .a, .b), (.reg .b, .a)], [(.reg .b, .b)], [(.reg .ccr, .b), (.reg .b, .ccr)],
      [(.reg .tmp3Low, .b), (.reg .b, .tmp3Low)], [(.allOnes, .a), (.reg .b, .b)],
      [(.reg .xLow, .b), (.reg .b, .xLow)], [(.reg .yLow, .b), (.reg .b, .yLow)],
      [(.reg .spLow, .b), (.reg .b, .spLow)]]
  | .ccr =>
    [[(.reg .a, .ccrh), (.reg .ccrh, .a)], [(.reg .b, .ccr), (.reg .ccr, .b)], [(.reg .ccrw, .ccrw)],
      [(.reg .tmp3, .ccrw), (.reg .ccrw, .tmp3)], [(.reg .d, .ccrw), (.reg .ccrw, .d)],
      [(.reg .x, .ccrw), (.reg .ccrw, .x)], [(.reg .y, .ccrw), (.reg .ccrw, .y)],
      [(.reg .sp, .ccrw), (.reg .ccrw, .sp)]]
  | .tmp =>
    [[(.reg .a, .tmp2High), (.reg .tmp2High, .a)], [(.reg .b, .tmp2Low), (.reg .tmp2Low, .b)],
      [(.reg .ccrw, .tmp2), (.reg .tmp2, .ccrw)], [(.reg .tmp3, .tmp2), (.reg .tmp2, .tmp3)],
      [(.reg .d, .tmp1), (.reg .tmp1, .d)], [(.reg .x, .tmp2), (.reg .tmp2, .x)],
      [(.reg .y, .tmp2), (.reg .tmp2, .y)], [(.reg .sp, .tmp2), (.reg .tmp2, .sp)]]
  | .d =>
    [[(.zero .a, .d)], [(.zero .b, .d)], [(.reg .ccrw, .d), (.reg .d, .ccrw)],
      [(.reg .tmp1, .d), (.reg .d, .tmp1)], [(.reg .d, .d)], [(.reg .x, .d), (.reg .d, .x)],
      [(.reg .y, .d), (.reg .d, .y)], [(.reg .sp, .d), (.reg .d, .sp)]]
  | .x =>
    [[(.reg .a, .xHigh), (.reg .xHigh, .a)], [(.reg .b, .xLow), (.reg .xLow, .b)],
      [(.reg .ccrw, .x), (.reg .x, .ccrw)], [(.reg .tmp3, .x), (.reg .x, .tmp3)], [(.reg .d, .x), (.reg .x, .d)],
      [(.reg .x, .x)], [(.reg .y, .x), (.reg .x, .y)], [(.reg .sp, .x), (.reg .x, .sp)]]
  | .y =>
    [[(.reg .a, .yHigh), (.reg .yHigh, .a)], [(.reg .b, .yLow), (.reg .yLow, .b)],
      [(.reg .ccrw, .y), (.reg .y, .ccrw)], [(.reg .tmp3, .y), (.reg .y, .tmp3)], [(.reg .d, .y), (.reg .y, .d)],
      [(.reg .x, .y), (.reg .y, .x)], [(.reg .y, .y)], [(.reg .sp, .y), (.reg .y, .sp)]]
  | .sp =>
    [[(.reg .a, .spHigh), (.reg .spHigh, .a)], [(.reg .b, .spLow), (.reg .spLow, .b)],
      [(.reg .ccrw, .sp), (.reg .sp, .ccrw)], [(.reg .tmp3, .sp), (.reg .sp, .tmp3)],
      [(.reg .d, .sp), (.reg .sp, .d)], [(.reg .x, .sp), (.reg .sp, .x)], [(.reg .y, .sp), (.reg .sp, .y)],
      [(.reg .sp, .sp)]]

/-- The number of a register code (R270). -/
def xferNumber : XferReg → Nat
  | .a => 0
  | .b => 1
  | .ccr => 2
  | .tmp => 3
  | .d => 4
  | .x => 5
  | .y => 6
  | .sp => 7

/-- The cell of a row under the code of the first register. -/
def cellOf (row : List Cell) (r1 : XferReg) : Cell := row.getD (xferNumber r1) []

/-! ### The rule lists of REV, the elements of WAV -/

/-- The bytes from an address on are the listed ones. -/
def State.Holds (s : State) (addr : Word) (bytes : List Byte) : Prop :=
  ∀ k, (h : k < bytes.length) → s.read8 (addr + BitVec.ofNat 16 k) = bytes[k]

/-- The words from an address on are the listed ones. -/
def State.HoldsWords (s : State) (addr : Word) (words : List Word) : Prop :=
  ∀ k, (h : k < words.length) → s.read16 (addr + BitVec.ofNat 16 (2 * k)) = words[k]

/-- The state after the first `n` elements of WAV are read, of each the value at `x` and then the weight at `y`
(R565). -/
def State.elementsRead (s : State) (x y : Word) : Nat → State
  | 0 => s
  | n + 1 => ((s.elementsRead x y n).touched8 (x + BitVec.ofNat 16 n)).touched8 (y + BitVec.ofNat 16 n)

/-- The value of element `n` of WAV. -/
def State.elementValue (s : State) (x y : Word) (n : Nat) : Nat :=
  ((s.elementsRead x y n).read8 (x + BitVec.ofNat 16 n)).toNat

/-- The weight of element `n` of WAV. -/
def State.elementWeight (s : State) (x y : Word) (n : Nat) : Nat :=
  (((s.elementsRead x y n).touched8 (x + BitVec.ofNat 16 n)).read8 (y + BitVec.ofNat 16 n)).toNat

/-- The smallest of a value and the bytes at the listed addresses. -/
def State.leastOf (s : State) (start : Byte) (addrs : List Word) : Nat :=
  addrs.foldl (fun least addr => min least (s.read8 addr).toNat) start.toNat

end Sys2Proof.Machine
end

