-- ==== Sys2Proof/Certificates/Slice0/Obligations.lean ====
section
/-! DEFINITION. The statements for the provers, in the order of the spec's sections: encoding, the step, exceptions,
memory and operands, then the instruction families. Log entries are those of `notes/assumptions`. -/

open Sys2Proof Sys2Proof.Machine

/-- Decoding the encoding of any well-formed instruction gives that instruction (R120, R122, R130, R139, R141, R142,
R144, R145, R160, R161, R162). -/
def Obligations.DecodeOfEncodeIsTheInstruction : Prop :=
  ∀ (v : Variant) (i : Instr) (rest : List Byte), i.wellFormed v = true → i.isAlias = false →
    decode v (encode i ++ rest) = .ok (i, rest)

/-- What the decoder consumes is the encoding of the instruction it answers (R120, R122, R130, R139, R141, R142, R145,
R160, R161, R162, R166). -/
def Obligations.DecodedBytesAreTheEncoding : Prop :=
  ∀ (v : Variant) (bs : List Byte) (i : Instr) (rest : List Byte), decode v bs = .ok (i, rest) →
    i.wellFormed v = true ∧ i.isAlias = false ∧ bs = encode i ++ rest

/-- Every alias has the words and the effect of a core instruction (R171, R273, R279, R311, R343, R442, R485, R580,
R598). -/
def Obligations.AliasesAreTheirInstruction : Prop :=
  ∀ i : Instr, i.isAlias = true → ∃ j : Instr, j.isAlias = false ∧ encode i = encode j ∧
    (∀ v, i.wellFormed v = j.wellFormed v) ∧ ∀ s, exec i s = exec j s

/-- Words written out from the encodings of the spec decode to their instructions (R131, R132, R141, R142, R144, R202,
R260, R262, R450, R610). -/
def Obligations.WordsDecodeToTheirInstructions : Prop :=
  decode .hcs12x [0x86, 0x12] = .ok (.ldaa (.imm 0x12), []) ∧
    decode .hcs12x [0xEC, 0x31] = .ok (.ldd (.mem (.idx (.auto .x true 1))), []) ∧
    decode .hcs12x [0x6D, 0xE3, 0x10, 0x00] = .ok (.sty (.idx (.indirect16 .x 0x1000)), []) ∧
    decode .hcs12x [0x18, 0x08, 0xE1, 0xF0, 0x55] = .ok (.movb (.imm 0x55) (.idx (.const9 .x 0x1F0)), []) ∧
    decode .hcs12x [0xB7, 0xC5] = .ok (.exg .d .x false, []) ∧
    decode .hcs12x [0x18, 0x35, 0x40, 0x81] = .ok (.btas (.dir 0x40) 0x81, []) ∧
    decode .hcs12x [0x1F, 0x20, 0x00, 0x0F, 0xFB] = .ok (.brclr (.ext 0x2000) 0x0F 0xFB, []) ∧
    decode .hcs12x [0x04, 0x15, 0xFD] = .ok (.dbeq .x 0x1FD, []) ∧
    decode .hcs12x [0x4A, 0x80, 0x00, 0x3C] = .ok (.call (.direct (.ext 0x8000) 0x3C), []) ∧
    decode .hcs12x [0x4B, 0xE7] = .ok (.call (.indirect (.indirectD .x)), []) ∧
    decode .hcs12x [0x18, 0x42] = .ok (.incx, []) ∧
    decode .hcs12 [0x18, 0x42] = .ok (.trap 0x42, [])

/-- A step runs the instruction at the program counter (R11, R19, R59, R61, R91, R93, R570, R711). The queue, the mark
`refilled`, the counter and the devices are the model's own fields: log entries 8, 12 and 13. -/
def Obligations.StepRunsTheDecodedInstruction : Prop :=
  ∀ (s : State) (i : Instr) (rest : List Byte) (t : State), s.Quiet →
    decode s.params.variant s.fetchBytes = .ok (i, rest) →
    exec i (s.fetched (longestInstruction - rest.length)) = .next t →
    ∃ u, step s = .next u ∧ StepAdds i (s.pc + BitVec.ofNat 16 (longestInstruction - rest.length)) s t u

/-- An instruction whose bytes lie in memory at PC is the one the next step runs (for some forms the model's choice:
log entries 9, 11) (R10, R11, R19, R80, R93, R120, R711). The model's choice, and not the spec's, is that the forms of
U9 (R140, points 3 and 4: log entry 9) and of U14 (WAV with B = 0, wavr without a record: log entry 11) run: the spec
has them refused. Prefetches may change the devices: log entry 8. -/
def Obligations.InstructionInMemoryRuns : Prop :=
  ∀ (s : State) (i : Instr), s.Quiet → s.queue = [] → i.wellFormed s.params.variant = true → i.isAlias = false →
    s.NoDevice s.pc (encode i).length → s.Holds s.pc (encode i) →
    let u := s.fetched (encode i).length
    u.pc = s.pc + BitVec.ofNat 16 (encode i).length ∧ Unchanged [.pc, .devices, .refilled] s u ∧
      ∃ t v, exec i u = .next t ∧ step s = .next v ∧
        StepAdds i (s.pc + BitVec.ofNat 16 (encode i).length) s t v

/-- A step never faults, and refuses exactly at an encoding that decodes to nothing (in part the model's choice: log
entries 9, 11, 22) (R18, R19, R94, R164, R660). The model's choices in it: that the forms of U9 (R140, points 3 and 4)
run and are not refused is log entry 9; that WAV with B = 0 and wavr without an interrupted WAV (U14) run and are not
refused is log entry 11; that an undefined encoding is refused although a reset arrives (R662) is log entry 22. -/
def Obligations.StepRefusesOnlyUndefinedEncodings : Prop :=
  ∀ s : State, (∀ f, step s ≠ .fault f) ∧
    ∀ r, step s = .refused r ↔
      s.Ready ∧ ∃ e, decode s.params.variant s.fetchBytes = .error e ∧ r = .undefinedEncoding e

/-- Every instruction completes in every state (for some forms the model's choice: log entries 9, 11, 20), and none
sets the X mask bit (R17, R18, R49, R58, R94). The model's choice, and not the spec's, is that it completes for the
forms of U9 (R140, points 3 and 4: log entry 9), for WAV with B = 0 and wavr without a record (U14: log entry 11), and
for terms that are ill-formed on the variant (log entry 20). -/
def Obligations.EveryInstructionCompletes : Prop :=
  ∀ (i : Instr) (s : State),
    Runs i s fun t => t.params = s.params ∧ (s.flag .x = false → t.flag .x = false) ∧ (s.Inv → t.Inv)

/-- exec of an HCS12X-only instruction on HCS12 takes the unimplemented opcode trap (the model's choice, log entry 20)
(R161, R164, R172, R643, R663, R668). The model's choice, log entry 20: the decoder of HCS12 answers the trap and
never such a term. -/
def Obligations.Hcs12xInstructionsTrapOnHcs12 : Prop :=
  ∀ (i : Instr) (s : State), s.Inv → i.hcs12xOnly = true → s.params.variant = .hcs12 →
    Runs i s (Entered 0xFFF8#16 false s.pc s)

/-- Every step keeps both memories canonical, GPAGE within its bits, and the parameters fixed (R4, R5, R58, R80, R84).
-/
def Obligations.StepKeepsTheInvariant : Prop :=
  ∀ s t : State, s.Inv → step s = .next t → t.Inv ∧ t.params = s.params

/-- The state at reset: the invariant, S, X and I set, PC from the reset vector; nothing pending is log entry 2's
choice (R65, R700). That nothing is pending is the model's choice, log entry 2. -/
def Obligations.ResetStateIsAsTheSpecSays : Prop :=
  State.reset.Inv ∧ State.reset.flag .s = true ∧ State.reset.flag .x = true ∧ State.reset.flag .i = true ∧
    State.reset.pc = State.reset.readVector 0xFFFE#16 ∧ State.reset.runState = .running ∧ State.reset.pending = []

/-- The X mask bit goes from 0 to 1 only by a reset or by the entry to XIRQ (R17, R49, R662, R665, R671). -/
def Obligations.OnlyResetOrXirqSetsTheXMask : Prop :=
  ∀ s t : State, step s = .next t → s.flag .x = false → t.flag .x = true →
    (∃ r, s.nextReset = some r) ∨ (∃ k r, s.arrivingReset = some (k, r)) ∨
      (s.nextInterrupt = some .xirq ∧ s.runState ≠ .background)

/-- A reset is taken in any run state, also in the middle of an instruction, whose partial effects stay (R65, R82,
R92, R662, R667, R700). An element that ResetValues does not give stays: log entry 5. How far an abandoned instruction
had got is free: log entries 14 and 22. That the forms of U9 (R140, points 3 and 4) run is the model's choice: log
entry 9. -/
def Obligations.ResetIsTaken : Prop :=
  ∀ (s : State) (r : Request),
    (s.nextReset = some r → ∃ t, step s = .next t ∧ ResetTaken r s t) ∧
    ∀ k, s.nextReset = none → s.arrivingReset = some (k, r) → s.Inv →
      (s.runState = .running → s.nextInterrupt = none → ∀ i rest,
        decode s.params.variant s.fetchBytes = .ok (i, rest) → hasCommas i = false →
        let v := { s.fetched (longestInstruction - rest.length) with arrival := none }
        ∃ u c t, exec i v = .next u ∧ PartWay (postbytesOf i) (betweenStores i v) s u c ∧
          step s = .next t ∧ ResetTaken r c t) ∧
      (s.runState = .running → ∀ q, s.nextInterrupt = some q →
        ∃ c t, PartWay [] (pushStages s s.pc) s (s.interrupt q) c ∧ step s = .next t ∧ ResetTaken r c t) ∧
      (s.runState = .waiting → ∃ c t, PartWay [] [] s s.waitingStep c ∧ step s = .next t ∧ ResetTaken r c t) ∧
      (s.runState = .stopped → ∃ c t, PartWay [] [] s s.stoppedStep c ∧ step s = .next t ∧ ResetTaken r c t) ∧
      (s.runState = .background → ∃ t, step s = .next t ∧ ResetTaken r s t) ∧
      (s.FrameClear → ∀ rtn n m, (pushStages s rtn)[n]? = some m →
        Stored ((frameStores s rtn).take (2 * (n + 1))) s m)

/-- The vector addresses of the resets, the traps and the interrupts (R661). -/
def Obligations.VectorsAreWhereTheSpecPutsThem : Prop :=
  vectorOf .por = 0xFFFE#16 ∧ vectorOf .clockMonitor = 0xFFFC#16 ∧ vectorOf .cop = 0xFFFA#16 ∧
    trapVector = 0xFFF8#16 ∧ swiVector = 0xFFF6#16 ∧ vectorOf .xirq = 0xFFF4#16 ∧ vectorOf .irq = 0xFFF2#16 ∧
    (∀ k : Fin 121, (vectorOf (.device k)).toNat = 0xFF00 + 2 * k.val) ∧
    ∀ (s : State) (vec : Word), kindIn s.params.memMap vec.toNat = .ram →
      kindIn s.params.memMap (vec + 1).toNat = .ram →
      (s.readVector vec).toNat = 256 * (memGet s.mem vec.toNat).toNat + (memGet s.mem (vec + 1).toNat).toNat

/-- Which pending request is taken: resets first, then the first enabled one in the order of IrqSources (R49, R51,
R665, R666, R667). That a source outside IrqSources is never taken is log entry 19. -/
def Obligations.RecognitionOrder : Prop :=
  ∀ s : State,
    (.por ∈ s.pending → s.nextReset = some .por) ∧
    (.por ∉ s.pending → .clockMonitor ∈ s.pending → s.nextReset = some .clockMonitor) ∧
    (.por ∉ s.pending → .clockMonitor ∉ s.pending → .cop ∈ s.pending → s.nextReset = some .cop) ∧
    (.por ∉ s.pending → .clockMonitor ∉ s.pending → .cop ∉ s.pending → s.nextReset = none) ∧
    s.enabled .xirq = !s.flag .x ∧ s.enabled .irq = !s.flag .i ∧ (∀ k, s.enabled (.device k) = !s.flag .i) ∧
    (∀ first r later, s.params.irqSources = first ++ r :: later → isResetRequest r = false → r ∈ s.pending →
      s.enabled r = true →
      (∀ q ∈ first, isResetRequest q = false → q ∈ s.pending → s.enabled q = false) → s.nextInterrupt = some r) ∧
    (s.nextInterrupt = none ↔
      ∀ r ∈ s.params.irqSources, isResetRequest r = false → r ∈ s.pending → s.enabled r = false)

/-- An enabled interrupt is taken at the boundary with the entry sequence, returning to the current PC (R665, R666,
R668, R669, R670, R671, R674). The request stays pending until the environment withdraws it: log entry 19. -/
def Obligations.InterruptIsTakenBetweenInstructions : Prop :=
  ∀ (s : State) (r : Request), s.Inv → s.runState = .running → s.nextReset = none → s.arrivingReset = none →
    s.nextInterrupt = some r →
    ∃ t u, Entered (vectorOf r) (r == .xirq) s.pc s t ∧ step s = .next u ∧
      Unchanged [.tmp1, .tmp2, .tmp3, .queue, .refilled, .fresh] t u ∧ u.queue = [] ∧ u.refilled = false ∧
      u.fresh = t.fresh + 1

/-- SWI and TRAP stack the frame, set I, and go to the word at their vector (R642, R643, R663, R664, R668, R669, R670,
R671). -/
def Obligations.SoftwareExceptionsEnter : Prop :=
  ∀ s : State, s.Inv → Runs .swi s (Entered 0xFFF6#16 false s.pc s) ∧
    ∀ tn, Runs (.trap tn) s (Entered 0xFFF8#16 false s.pc s)

/-- RTI loads the condition codes, B, A, X, Y and PC from the frame (R644). -/
def Obligations.RtiPullsTheFrame : Prop :=
  ∀ s : State,
    (s.params.variant = .hcs12 → Runs .rti s fun t =>
      let u1 := s.touched8 s.sp
      let u2 := u1.touched16 (s.sp + 1)
      let u3 := u2.touched16 (s.sp + 3)
      let u4 := u3.touched16 (s.sp + 5)
      let u5 := u4.touched16 (s.sp + 7)
      CcrLoaded (s.read8 s.sp) s t ∧ t.b = u1.read8 (s.sp + 1) ∧ t.a = u1.read8 (s.sp + 2) ∧
        t.x = u2.read16 (s.sp + 3) ∧ t.y = u3.read16 (s.sp + 5) ∧ t.pc = u4.read16 (s.sp + 7) ∧ t.sp = s.sp + 9 ∧
        t.refilled = true ∧ Unchanged [.a, .b, .x, .y, .sp, .pc, .ccr, .refilled] u5 t ∧ ReadsAsBefore u5 t) ∧
    (s.params.variant = .hcs12x → Runs .rti s fun t =>
      let u1 := s.touched16 s.sp
      let u2 := u1.touched16 (s.sp + 2)
      let u3 := u2.touched16 (s.sp + 4)
      let u4 := u3.touched16 (s.sp + 6)
      let u5 := u4.touched16 (s.sp + 8)
      CcrhLoaded (s.read8 s.sp) s t ∧ CcrLoaded (s.read8 (s.sp + 1)) s t ∧ t.b = u1.read8 (s.sp + 2) ∧
        t.a = u1.read8 (s.sp + 3) ∧ t.x = u2.read16 (s.sp + 4) ∧ t.y = u3.read16 (s.sp + 6) ∧
        t.pc = u4.read16 (s.sp + 8) ∧ t.sp = s.sp + 10 ∧
        t.refilled = true ∧ Unchanged [.a, .b, .x, .y, .sp, .pc, .ccr, .ccrh, .refilled] u5 t ∧ ReadsAsBefore u5 t)

/-- RTI after any entry gives back the interrupted program's state, with only the frame's bytes stored (R644, R668,
R669, R670, R672, R674). -/
def Obligations.RtiUndoesTheEntry : Prop :=
  ∀ s : State, s.Inv → s.runState = .running →
    s.PlainRam (s.sp - frameSize s.params.variant) (frameSize s.params.variant).toNat →
    (∀ i vec, (i = .swi ∧ vec = 0xFFF6#16) ∨ (∃ tn, i = .trap tn ∧ vec = 0xFFF8#16) →
      ∃ t, exec i s = .next t ∧ ∀ p, Runs .rti { t with pc := p } fun u =>
        Unchanged [.mem, .refilled] (s.touchedVector vec) u ∧
          ∀ loc, memGet u.mem loc = (lastByte (frameStores s s.pc) (.cell loc)).getD (memGet s.mem loc)) ∧
    ∀ r, s.nextReset = none → s.arrivingReset = none → s.nextInterrupt = some r →
      ∃ t, step s = .next t ∧ ∀ p, Runs .rti { t with pc := p } fun u =>
        Unchanged [.mem, .refilled, .tmp1, .tmp2, .tmp3, .queue, .fresh] (s.touchedVector (vectorOf r)) u ∧
          ∀ loc, memGet u.mem loc = (lastByte (frameStores s s.pc) (.cell loc)).getD (memGet s.mem loc)

/-- WAI, and STOP with S = 0, stack the frame and halt; STOP with S = 1 does nothing (R645, R646, R669, R670, R674,
R679). -/
def Obligations.WaiAndStopStackAndWait : Prop :=
  ∀ s : State, s.Inv →
    (Runs .wai s fun t => Stacked s.pc s t ∧ t.runState = .waiting ∧
      Unchanged [.sp, .mem, .ppage, .gpage, .devices, .runState] s t) ∧
    (s.flag .s = false → Runs .stop s fun t => Stacked s.pc s t ∧ t.runState = .stopped ∧
      Unchanged [.sp, .mem, .ppage, .gpage, .devices, .runState] s t) ∧
    (s.flag .s = true → Runs .stop s (Unchanged [] s))

/-- What ends Waiting and Stopped: an enabled interrupt without further stacking, or for Stopped a masked XIRQ (R645,
R646, R667, R679). The exit by a masked XIRQ, and XIRQ having to be in IrqSources, are log entry 17. -/
def Obligations.WaitingAndStoppedEnd : Prop :=
  ∀ s : State, s.nextReset = none → s.arrivingReset = none → s.runState = .waiting ∨ s.runState = .stopped →
    (∀ r, s.nextInterrupt = some r → ∃ u, step s = .next u ∧ u.pc = s.readVector (vectorOf r) ∧
      u.runState = .running ∧ u.queue = [] ∧ FlagsSet ((.i, true) :: if r = .xirq then [(.x, true)] else []) s u ∧
      Unchanged [.pc, .ccr, .runState, .tmp1, .tmp2, .tmp3, .queue, .refilled, .fresh]
        (s.touchedVector (vectorOf r)) u) ∧
    (s.nextInterrupt = none →
      (s.runState = .waiting → step s = .next s) ∧
      (s.runState = .stopped →
        (.xirq ∈ s.pending ∧ .xirq ∈ s.params.irqSources →
          ∃ u, step s = .next u ∧ u.sp = s.sp + frameSize s.params.variant ∧ u.runState = .running ∧
            Unchanged [.sp, .runState] s u) ∧
        (¬ (.xirq ∈ s.pending ∧ .xirq ∈ s.params.irqSources) → step s = .next s)))

/-- NOP does nothing; BGND enters Background only where it is enabled, and Background stays (R640, R641, R662, R678).
That BGND is no change of flow is the model's choice, log entry 12. -/
def Obligations.NopAndBackground : Prop :=
  ∀ s : State, Runs .nop s (Unchanged [] s) ∧
    (s.params.bdmEnabled = false → Runs .bgnd s (Unchanged [] s)) ∧
    (s.params.bdmEnabled = true → Runs .bgnd s fun t => t.runState = .background ∧ Unchanged [.runState] s t) ∧
    (s.runState = .background → s.nextReset = none → s.arrivingReset = none → step s = .next s)

/-- A word lies with its high byte first; a push lowers SP and a pull gives the pushed value back (R12). -/
def Obligations.WordsAreBigEndianAndTheStackGrowsDown : Prop :=
  ∀ s : State, s.Inv →
    (∀ addr v, s.PlainRam addr 2 → (s.write16 addr v).read8 addr = v.extractLsb' 8 8 ∧
      (s.write16 addr v).read8 (addr + 1) = v.extractLsb' 0 8 ∧ (s.write16 addr v).read16 addr = v) ∧
    (∀ v, s.PlainRam (s.sp - 1) 1 → (s.push8 v).sp = s.sp - 1 ∧ (s.push8 v).top8 = v ∧
      ((s.push8 v).popped 1).sp = s.sp) ∧
    (∀ v, s.PlainRam (s.sp - 2) 2 → (s.push16 v).sp = s.sp - 2 ∧ (s.push16 v).read8 (s.sp - 2) = v.extractLsb' 8 8 ∧
      (s.push16 v).read8 (s.sp - 1) = v.extractLsb' 0 8 ∧ (s.push16 v).top16 = v ∧
      ((s.push16 v).popped 2).sp = s.sp)

/-- The effective address of every operand form, and the register an auto-modifying form changes (R125, R126, R131,
R132, R133, R134, R135, R136, R137). -/
def Obligations.EffectiveAddresses : Prop :=
  ∀ s : State,
    (∀ dd, (eaAddress (.dir dd) s).toNat = dd.toNat) ∧ (∀ hhll, eaAddress (.ext hhll) s = hhll) ∧
    (∀ base n, eaAddress (.idx (.const5 base n)) s = BitVec.ofInt 16 ((s.base base).toNat + n.toInt)) ∧
    (∀ base n, eaAddress (.idx (.const9 base n)) s = BitVec.ofInt 16 ((s.base base).toNat + n.toInt)) ∧
    (∀ base n, eaAddress (.idx (.const16 base n)) s = BitVec.ofInt 16 ((s.base base).toNat + n.toInt)) ∧
    (∀ base n, eaAddress (.idx (.indirect16 base n)) s =
      s.read16 (BitVec.ofInt 16 ((s.base base).toNat + n.toInt))) ∧
    (∀ base, eaAddress (.idx (.acc .a base)) s = BitVec.ofNat 16 ((s.base base).toNat + s.a.toNat)) ∧
    (∀ base, eaAddress (.idx (.acc .b base)) s = BitVec.ofNat 16 ((s.base base).toNat + s.b.toNat)) ∧
    (∀ base, eaAddress (.idx (.acc .d base)) s =
      BitVec.ofNat 16 ((s.base base).toNat + 256 * s.a.toNat + s.b.toNat)) ∧
    (∀ base, eaAddress (.idx (.indirectD base)) s =
      s.read16 (BitVec.ofNat 16 ((s.base base).toNat + 256 * s.a.toNat + s.b.toNat))) ∧
    (s.base .x = s.x ∧ s.base .y = s.y ∧ s.base .sp = s.sp ∧ s.base .pc = s.pc) ∧
    (∀ (r : IdxReg) (k : BitVec 4),
      let old := s.get16 (autoReg r)
      let new := BitVec.ofInt 16 (old.toNat + if k.toNat < 8 then (k.toNat : Int) + 1 else (k.toNat : Int) - 16)
      eaAddress (.idx (.auto r false k)) s = new ∧ eaAddress (.idx (.auto r true k)) s = old ∧
      ∀ post, (eaAfter (.idx (.auto r post k)) s).get16 (autoReg r) = new ∧
        Unchanged (autoReg r).parts s (eaAfter (.idx (.auto r post k)) s)) ∧
    (∀ dd, eaAfter (.dir dd) s = s) ∧ (∀ hhll, eaAfter (.ext hhll) s = s) ∧
    ∀ xb, autoModified xb = none → eaAfter (.idx xb) s =
      if xb.isIndirect then s.touched16 (indexedAddress xb s) else s

/-- Where logical, paged and global accesses go, over any lists of regions and windows, and what they do there (R5,
R10, R57, R58, R80, R84, R85, R93, R94). The lists are the model's form of the platform's functions: log entries 6, 7
and 8. -/
def Obligations.PagedAndGlobalPlaces : Prop :=
  ∀ s : State,
    (∀ addr : Word,
      let kind := kindIn s.params.memMap addr.toNat
      (∀ g, FirstHolding (InRegion addr.toNat) s.params.memMap g → kind = g.kind) ∧
      ((∀ g ∈ s.params.memMap, ¬ InRegion addr.toNat g) → kind = .ram) ∧
      (∀ w, FirstHolding (InPageWindow s.ppage addr.toNat) s.params.pageWindows w →
        s.place addr = placeOf kind (w.base + s.ppage.toNat * w.size + (addr.toNat - w.lo)) addr.toNat) ∧
      ((∀ w ∈ s.params.pageWindows, ¬ InPageWindow s.ppage addr.toNat w) →
        s.place addr = placeOf kind addr.toNat addr.toNat)) ∧
    (∀ (ea : Word) (k : Nat),
      let c := s.gpage * 65536 + ea.toNat
      let g := s.globalAddress ea k
      (∀ w, FirstHolding (InTranslateWindow c) s.params.globalTranslate w → g = w.base + (c - w.lo) + k) ∧
      ((∀ w ∈ s.params.globalTranslate, ¬ InTranslateWindow c w) → g = c + k) ∧
      (∀ w, FirstHolding (InGlobalWindow g) s.params.globalWindows w → s.globalPlaceAt ea k =
        match w.target with
        | .logical base => s.place (BitVec.ofNat 16 (base + (g - w.lo)))
        | .logicalStore kind base => placeOf kind (base + (g - w.lo)) (base + (g - w.lo))
        | .globalStore kind base => globalPlaceOf kind (base + (g - w.lo))) ∧
      ((∀ w ∈ s.params.globalWindows, ¬ InGlobalWindow g w) → s.globalPlaceAt ea k = .globalCell g)) ∧
    (∀ p, Unchanged [.devices] s (s.accessed p) ∧ ((∀ reg, p ≠ .device reg) → s.accessed p = s)) ∧
    (∀ n v, s.putPlace (.rom n) v = s ∧ s.putPlace (.globalRom n) v = s ∧ s.putPlace (.openBus n) v = s) ∧
    (s.Inv → ∀ p v, p = .ppageReg ∨ (∃ n, p = .cell n ∨ p = .globalCell n) → (s.putPlace p v).getPlace p = v)

/-- The loads put the operand in the register, set N and Z from it and clear V (R202, R203, R204, R205, R206, R207).
-/
def Obligations.LoadsTakeTheOperand : Prop :=
  ∀ s : State,
    (∀ src, Runs (.ldaa src) s fun t =>
      Gives8 .a (src8Value src s) (logicFlags (src8Value src s)) (src8After src s) t) ∧
    (∀ src, Runs (.ldab src) s fun t =>
      Gives8 .b (src8Value src s) (logicFlags (src8Value src s)) (src8After src s) t) ∧
    (∀ src, Runs (.ldd src) s fun t =>
      Gives16 .d (src16Value src s) (logicFlags (src16Value src s)) (src16After src s) t) ∧
    (∀ src, Runs (.lds src) s fun t =>
      Gives16 .sp (src16Value src s) (logicFlags (src16Value src s)) (src16After src s) t) ∧
    (∀ src, Runs (.ldx src) s fun t =>
      Gives16 .x (src16Value src s) (logicFlags (src16Value src s)) (src16After src s) t) ∧
    (∀ src, Runs (.ldy src) s fun t =>
      Gives16 .y (src16Value src s) (logicFlags (src16Value src s)) (src16After src s) t)

/-- The stores write the register at the effective address, flags of the value (auto-modified register: the model's
choice, log entry 9) (R200, R208, R209, R210, R211, R212, R213). The model's choice, log entry 9, and not the spec's:
a store of the register that its postbyte auto-modifies runs, and stores the old or the new value. R140, point 3, says
that the model refuses it (U9). -/
def Obligations.StoresWriteTheRegister : Prop :=
  ∀ s : State, s.Inv →
    (∀ ea, Runs (.staa ea) s fun t =>
      GivesByte (eaAddress ea s) s.a (logicFlags s.a) (eaAfter ea s) t) ∧
    (∀ ea, Runs (.stab ea) s fun t =>
      GivesByte (eaAddress ea s) s.b (logicFlags s.b) (eaAfter ea s) t) ∧
    (∀ ea, Runs (.std ea) s fun t => ∃ v, StorableValue .d ea s v ∧
      GivesWord (eaAddress ea s) v (logicFlags v) (eaAfter ea s) t) ∧
    (∀ ea, Runs (.sts ea) s fun t => ∃ v, StorableValue .sp ea s v ∧
      GivesWord (eaAddress ea s) v (logicFlags v) (eaAfter ea s) t) ∧
    (∀ ea, Runs (.stx ea) s fun t => ∃ v, StorableValue .x ea s v ∧
      GivesWord (eaAddress ea s) v (logicFlags v) (eaAfter ea s) t) ∧
    (∀ ea, Runs (.sty ea) s fun t => ∃ v, StorableValue .y ea s v ∧
      GivesWord (eaAddress ea s) v (logicFlags v) (eaAfter ea s) t)

/-- The global loads and stores do what their logical twins do (store of an auto-modified register: the model's
choice, log entry 9) (R214, R215, R216, R217, R218, R219, R220, R221, R222, R223, R224, R225). At
GlobalTranslate(GPAGE, address), under the common rules R84 and R201. The model's choice, log entry 9, and not the
spec's: GSTS, GSTX and GSTY of the register that their postbyte auto-modifies run, and store the old or the new value.
R140, point 3, says that the model refuses them (U9). -/
def Obligations.GlobalLoadsAndStores : Prop :=
  ∀ s : State, s.Inv → s.params.variant = .hcs12x →
    (∀ ea, Runs (.gldaa ea) s fun t =>
      Gives8 .a (globalByte ea s) (logicFlags (globalByte ea s)) (afterGlobalByte ea s) t) ∧
    (∀ ea, Runs (.gldab ea) s fun t =>
      Gives8 .b (globalByte ea s) (logicFlags (globalByte ea s)) (afterGlobalByte ea s) t) ∧
    (∀ ea, Runs (.gldd ea) s fun t =>
      Gives16 .d (globalWord ea s) (logicFlags (globalWord ea s)) (afterGlobalWord ea s) t) ∧
    (∀ ea, Runs (.glds ea) s fun t =>
      Gives16 .sp (globalWord ea s) (logicFlags (globalWord ea s)) (afterGlobalWord ea s) t) ∧
    (∀ ea, Runs (.gldx ea) s fun t =>
      Gives16 .x (globalWord ea s) (logicFlags (globalWord ea s)) (afterGlobalWord ea s) t) ∧
    (∀ ea, Runs (.gldy ea) s fun t =>
      Gives16 .y (globalWord ea s) (logicFlags (globalWord ea s)) (afterGlobalWord ea s) t) ∧
    (∀ ea, Runs (.gstaa ea) s fun t =>
      GivesStores [(s.globalPlaceAt (eaAddress ea s) 0, s.a)] (logicFlags s.a) (eaAfter ea s) t) ∧
    (∀ ea, Runs (.gstab ea) s fun t =>
      GivesStores [(s.globalPlaceAt (eaAddress ea s) 0, s.b)] (logicFlags s.b) (eaAfter ea s) t) ∧
    (∀ ea, Runs (.gstd ea) s fun t => ∃ v, StorableValue .d ea s v ∧
      GivesStores (globalWordStores s (eaAddress ea s) v) (logicFlags v) (eaAfter ea s) t) ∧
    (∀ ea, Runs (.gsts ea) s fun t => ∃ v, StorableValue .sp ea s v ∧
      GivesStores (globalWordStores s (eaAddress ea s) v) (logicFlags v) (eaAfter ea s) t) ∧
    (∀ ea, Runs (.gstx ea) s fun t => ∃ v, StorableValue .x ea s v ∧
      GivesStores (globalWordStores s (eaAddress ea s) v) (logicFlags v) (eaAfter ea s) t) ∧
    (∀ ea, Runs (.gsty ea) s fun t => ∃ v, StorableValue .y ea s v ∧
      GivesStores (globalWordStores s (eaAddress ea s) v) (logicFlags v) (eaAfter ea s) t)

/-- LEAS, LEAX, LEAY, ABX, ABY, INS, DES leave the effective address (auto-modified destination: the model's choice,
log entry 9) (R226, R227, R228, R311, R312, R343, R352). The model's choice, log entry 9, and not the spec's: an LEA
whose postbyte auto-modifies its destination runs, and leaves the address or the updated base. R140, point 4, and R226
to R228 say that the model refuses it (U9). -/
def Obligations.EffectiveAddressLoads : Prop :=
  ∀ s : State,
    (∀ xb, Runs (.leas xb) s fun t => ∃ v,
      (v = xbAddress xb s ∨ v = (xbAfter xb s).get16 .sp) ∧ (autoModified xb ≠ some .sp → v = xbAddress xb s) ∧
      Gives16 .sp v [] (xbAfter xb s) t) ∧
    (∀ xb, Runs (.leax xb) s fun t => ∃ v,
      (v = xbAddress xb s ∨ v = (xbAfter xb s).get16 .x) ∧ (autoModified xb ≠ some .x → v = xbAddress xb s) ∧
      Gives16 .x v [] (xbAfter xb s) t) ∧
    (∀ xb, Runs (.leay xb) s fun t => ∃ v,
      (v = xbAddress xb s ∨ v = (xbAfter xb s).get16 .y) ∧ (autoModified xb ≠ some .y → v = xbAddress xb s) ∧
      Gives16 .y v [] (xbAfter xb s) t) ∧
    Runs .abx s (Gives16 .x (BitVec.ofNat 16 (s.x.toNat + s.b.toNat)) [] s) ∧
    Runs .aby s (Gives16 .y (BitVec.ofNat 16 (s.y.toNat + s.b.toNat)) [] s) ∧
    Runs .ins s (Gives16 .sp (plus s.sp 1 false) [] s) ∧
    Runs .des s (Gives16 .sp (minus s.sp 1 false) [] s)

/-- The clears leave zero, clear N, V and C and set Z (R229, R230, R231, R232, R233, R234). -/
def Obligations.ClearsLeaveZero : Prop :=
  ∀ s : State, s.Inv →
    (∀ ea, Runs (.clr ea) s fun t => GivesByte (eaAddress ea s) 0 [(.n, false), (.z, true), (.v, false), (.c, false)] (eaAfter ea s) t) ∧
    Runs .clra s (Gives8 .a 0 [(.n, false), (.z, true), (.v, false), (.c, false)] s) ∧
    Runs .clrb s (Gives8 .b 0 [(.n, false), (.z, true), (.v, false), (.c, false)] s) ∧
    (s.params.variant = .hcs12x →
      (∀ ea, Runs (.clrw ea) s fun t => GivesWord (eaAddress ea s) 0 [(.n, false), (.z, true), (.v, false), (.c, false)] (eaAfter ea s) t) ∧
      Runs .clrx s (Gives16 .x 0 [(.n, false), (.z, true), (.v, false), (.c, false)] s) ∧ Runs .clry s (Gives16 .y 0 [(.n, false), (.z, true), (.v, false), (.c, false)] s))

/-- The pushes store the register below SP and lower SP (R235, R236, R237, R238, R239, R240, R241). -/
def Obligations.PushesStoreBelowTheStackPointer : Prop :=
  ∀ s : State, s.Inv →
    Runs .psha s (Pushes 1 [(s.place (s.sp - 1), s.a)] s) ∧
    Runs .pshb s (Pushes 1 [(s.place (s.sp - 1), s.b)] s) ∧
    Runs .pshc s (Pushes 1 [(s.place (s.sp - 1), s.ccr)] s) ∧
    Runs .pshd s (Pushes 2 (wordStores s (s.sp - 2) (wordOf s.a s.b)) s) ∧
    Runs .pshx s (Pushes 2 (wordStores s (s.sp - 2) s.x) s) ∧
    Runs .pshy s (Pushes 2 (wordStores s (s.sp - 2) s.y) s) ∧
    (s.params.variant = .hcs12x → Runs .pshcw s (Pushes 2 (wordStores s (s.sp - 2) (wordOf s.ccrh s.ccr)) s))

/-- The pulls take the value at SP and raise SP (R242, R243, R244, R245, R246, R247, R248). -/
def Obligations.PullsTakeFromTheStackPointer : Prop :=
  ∀ s : State,
    (Runs .pula s fun t => t.a = s.read8 s.sp ∧ t.sp = s.sp + 1 ∧
      Unchanged [.sp, .a] (s.touched8 s.sp) t ∧ ReadsAsBefore (s.touched8 s.sp) t) ∧
    (Runs .pulb s fun t => t.b = s.read8 s.sp ∧ t.sp = s.sp + 1 ∧
      Unchanged [.sp, .b] (s.touched8 s.sp) t ∧ ReadsAsBefore (s.touched8 s.sp) t) ∧
    (Runs .pulc s fun t => CcrLoaded (s.read8 s.sp) s t ∧ t.sp = s.sp + 1 ∧
      Unchanged [.sp, .ccr] (s.touched8 s.sp) t ∧ ReadsAsBefore (s.touched8 s.sp) t) ∧
    (Runs .puld s fun t => t.a = s.read8 s.sp ∧ t.b = s.read8 (s.sp + 1) ∧ t.sp = s.sp + 2 ∧
      Unchanged [.sp, .a, .b] (s.touched16 s.sp) t ∧ ReadsAsBefore (s.touched16 s.sp) t) ∧
    (Runs .pulx s fun t => t.x = s.read16 s.sp ∧ t.sp = s.sp + 2 ∧
      Unchanged [.sp, .x] (s.touched16 s.sp) t ∧ ReadsAsBefore (s.touched16 s.sp) t) ∧
    (Runs .puly s fun t => t.y = s.read16 s.sp ∧ t.sp = s.sp + 2 ∧
      Unchanged [.sp, .y] (s.touched16 s.sp) t ∧ ReadsAsBefore (s.touched16 s.sp) t) ∧
    (s.params.variant = .hcs12x →
      Runs .pulcw s fun t => CcrhLoaded (s.read8 s.sp) s t ∧ CcrLoaded (s.read8 (s.sp + 1)) s t ∧ t.sp = s.sp + 2 ∧
      Unchanged [.sp, .ccr, .ccrh] (s.touched16 s.sp) t ∧ ReadsAsBefore (s.touched16 s.sp) t)

/-- MOVB and MOVW copy the source to the destination and set no flag (R92, R132, R140, R260, R261). -/
def Obligations.MovesCopyMemory : Prop :=
  ∀ s : State, s.Inv →
    (∀ src dst, Runs (.movb src dst) s fun t =>
      let u := src8After src s
      GivesByte (eaAddress dst u) (src8Value src s) [] (eaAfter dst u) t) ∧
    (∀ src dst, Runs (.movw src dst) s fun t =>
      let u := src16After src s
      GivesWord (eaAddress dst u) (src16Value src s) [] (eaAfter dst u) t)

/-- TAB, TBA, TAP, TPA, TSX, TSY, TXS, TYS, XGDX, XGDY and SEX (R265, R271, R272, R273, R274, R275, R276, R277, R278,
R279, R280). -/
def Obligations.SimpleTransfers : Prop :=
  ∀ s : State,
    Runs .tab s (Gives8 .b s.a (logicFlags s.a) s) ∧ Runs .tba s (Gives8 .a s.b (logicFlags s.b) s) ∧
    (Runs .tap s fun t => CcrLoaded s.a s t ∧ Unchanged [.ccr] s t) ∧ Runs .tpa s (Gives8 .a s.ccr [] s) ∧
    Runs .tsx s (Gives16 .x s.sp [] s) ∧ Runs .tsy s (Gives16 .y s.sp [] s) ∧
    Runs .txs s (Gives16 .sp s.x [] s) ∧ Runs .tys s (Gives16 .sp s.y [] s) ∧
    (Runs .xgdx s fun t => t.x = wordOf s.a s.b ∧ wordOf t.a t.b = s.x ∧ Unchanged [.a, .b, .x] s t) ∧
    (Runs .xgdy s fun t => t.y = wordOf s.a s.b ∧ wordOf t.a t.b = s.y ∧ Unchanged [.a, .b, .y] s t) ∧
    ∀ r1 r2, Runs (.sex r1 r2) s fun t =>
      wideRegValue r2 t = BitVec.ofInt 16 (byteRegValue r1 s).toInt ∧ Unchanged (wideRegParts r2) s t

/-- TFR: every cell of the two transfer tables (R263, R266, R267, R270). A cell with bit 3 set on HCS12 is log entry
20. -/
def Obligations.TransfersFollowTheTables : Prop :=
  ∀ s : State, ∀ r1 r2,
    Runs (.tfr r1 r2 false) s (CellDone (cellOf (transferRow r2) r1) s) ∧
    (s.params.variant = .hcs12x → Runs (.tfr r1 r2 true) s (CellDone (cellOf (transferRowAlt r2) r1) s)) ∧
    Runs (.tfr r1 r2 true) s (Unchanged transferParts s)

/-- EXG: every cell of the two exchange tables (R264, R268, R269, R270). A cell with bit 3 set on HCS12 is log entry
20. -/
def Obligations.ExchangesFollowTheTables : Prop :=
  ∀ s : State, ∀ r1 r2,
    Runs (.exg r1 r2 false) s (CellDone (cellOf (exchangeRow r2) r1) s) ∧
    (s.params.variant = .hcs12x → Runs (.exg r1 r2 true) s (CellDone (cellOf (exchangeRowAlt r2) r1) s)) ∧
    Runs (.exg r1 r2 true) s (Unchanged transferParts s)

/-- ABA, ADDA, ADDB, ADCA, ADCB: the sum and H, N, Z, V, C (R310, R313, R314, R315, R316). -/
def Obligations.ByteAdditions : Prop :=
  ∀ s : State,
    Runs .aba s (Gives8 .a (plus s.a s.b false) ((.h, nibbleCarry s.a s.b false) :: addFlags s.a s.b false) s) ∧
    (∀ src, Runs (.adca src) s fun t => Gives8 .a (plus s.a (src8Value src s) (s.flag .c))
      ((.h, nibbleCarry s.a (src8Value src s) (s.flag .c)) :: addFlags s.a (src8Value src s) (s.flag .c)) (src8After src s) t) ∧
    (∀ src, Runs (.adcb src) s fun t => Gives8 .b (plus s.b (src8Value src s) (s.flag .c))
      ((.h, nibbleCarry s.b (src8Value src s) (s.flag .c)) :: addFlags s.b (src8Value src s) (s.flag .c)) (src8After src s) t) ∧
    (∀ src, Runs (.adda src) s fun t => Gives8 .a (plus s.a (src8Value src s) false)
      ((.h, nibbleCarry s.a (src8Value src s) false) :: addFlags s.a (src8Value src s) false) (src8After src s) t) ∧
    (∀ src, Runs (.addb src) s fun t => Gives8 .b (plus s.b (src8Value src s) false)
      ((.h, nibbleCarry s.b (src8Value src s) false) :: addFlags s.b (src8Value src s) false) (src8After src s) t)

/-- ADDD, and on HCS12X ADDX, ADDY, ADED, ADEX, ADEY: the sum and the flags (R317, R318, R319, R320, R321, R322). -/
def Obligations.WordAdditions : Prop :=
  ∀ s : State,
    (∀ src, Runs (.addd src) s fun t =>
      Gives16 .d (plus s.d (src16Value src s) false) (addFlags s.d (src16Value src s) false) (src16After src s) t) ∧
    (s.params.variant = .hcs12x →
    (∀ src, Runs (.addx src) s fun t =>
      let u := src16After src s
      let m := src16Value src s
      ∃ h, Gives16 .x (plus (u.get16 .x) m false) ((.h, h) :: addFlags (u.get16 .x) m false) u t) ∧
    (∀ src, Runs (.addy src) s fun t =>
      let u := src16After src s
      let m := src16Value src s
      ∃ h, Gives16 .y (plus (u.get16 .y) m false) ((.h, h) :: addFlags (u.get16 .y) m false) u t) ∧
    (∀ src, Runs (.aded src) s fun t =>
      let u := src16After src s
      let m := src16Value src s
      let c := s.flag .c
      ∃ h, Gives16 .d (plus (u.get16 .d) m c)
        ((.h, h) :: underExtZ s.params.extZMode (s.flag .z) (addFlags (u.get16 .d) m c)) u t) ∧
    (∀ src, Runs (.adex src) s fun t =>
      let u := src16After src s
      let m := src16Value src s
      let c := s.flag .c
      ∃ h, Gives16 .x (plus (u.get16 .x) m c)
        ((.h, h) :: underExtZ s.params.extZMode (s.flag .z) (addFlags (u.get16 .x) m c)) u t) ∧
    (∀ src, Runs (.adey src) s fun t =>
      let u := src16After src s
      let m := src16Value src s
      let c := s.flag .c
      ∃ h, Gives16 .y (plus (u.get16 .y) m c)
        ((.h, h) :: underExtZ s.params.extZMode (s.flag .z) (addFlags (u.get16 .y) m c)) u t))

/-- SBA, SUBr, SBCr, and on HCS12X SUBX, SUBY, SBEr: the difference and N, Z, V, C (R323, R324, R325, R326, R327,
R328, R329, R330, R331, R332, R333). -/
def Obligations.Subtractions : Prop :=
  ∀ s : State,
    Runs .sba s (Gives8 .a (minus s.a s.b false) (subFlags s.a s.b false) s) ∧
    (∀ src, Runs (.suba src) s fun t => Gives8 .a (minus s.a (src8Value src s) false)
      (subFlags s.a (src8Value src s) false) (src8After src s) t) ∧
    (∀ src, Runs (.subb src) s fun t => Gives8 .b (minus s.b (src8Value src s) false)
      (subFlags s.b (src8Value src s) false) (src8After src s) t) ∧
    (∀ src, Runs (.sbca src) s fun t => Gives8 .a (minus s.a (src8Value src s) (s.flag .c))
      (subFlags s.a (src8Value src s) (s.flag .c)) (src8After src s) t) ∧
    (∀ src, Runs (.sbcb src) s fun t => Gives8 .b (minus s.b (src8Value src s) (s.flag .c))
      (subFlags s.b (src8Value src s) (s.flag .c)) (src8After src s) t) ∧
    (∀ src, Runs (.subd src) s fun t =>
      let u := src16After src s
      Gives16 .d (minus (u.get16 .d) (src16Value src s) false) (subFlags (u.get16 .d) (src16Value src s) false) u t) ∧
    (s.params.variant = .hcs12x →
    (∀ src, Runs (.subx src) s fun t =>
      let u := src16After src s
      Gives16 .x (minus (u.get16 .x) (src16Value src s) false) (subFlags (u.get16 .x) (src16Value src s) false) u t) ∧
    (∀ src, Runs (.suby src) s fun t =>
      let u := src16After src s
      Gives16 .y (minus (u.get16 .y) (src16Value src s) false) (subFlags (u.get16 .y) (src16Value src s) false) u t) ∧
    (∀ src, Runs (.sbed src) s fun t =>
      let u := src16After src s
      let m := src16Value src s
      Gives16 .d (minus (u.get16 .d) m (s.flag .c))
        (underExtZ s.params.extZMode (s.flag .z) (subFlags (u.get16 .d) m (s.flag .c))) u t) ∧
    (∀ src, Runs (.sbex src) s fun t =>
      let u := src16After src s
      let m := src16Value src s
      Gives16 .x (minus (u.get16 .x) m (s.flag .c))
        (underExtZ s.params.extZMode (s.flag .z) (subFlags (u.get16 .x) m (s.flag .c))) u t) ∧
    (∀ src, Runs (.sbey src) s fun t =>
      let u := src16After src s
      let m := src16Value src s
      Gives16 .y (minus (u.get16 .y) m (s.flag .c))
        (underExtZ s.params.extZMode (s.flag .z) (subFlags (u.get16 .y) m (s.flag .c))) u t))

/-- INX, INY, DEX, DEY count modulo 2^16 and write only Z (R341, R342, R350, R351). -/
def Obligations.IndexCountersWriteOnlyZ : Prop :=
  ∀ s : State,
    Runs .inx s (Gives16 .x (plus s.x 1 false) [(.z, decide ((plus s.x 1 false).toNat = 0))] s) ∧
    Runs .iny s (Gives16 .y (plus s.y 1 false) [(.z, decide ((plus s.y 1 false).toNat = 0))] s) ∧
    Runs .dex s (Gives16 .x (minus s.x 1 false) [(.z, decide ((minus s.x 1 false).toNat = 0))] s) ∧
    Runs .dey s (Gives16 .y (minus s.y 1 false) [(.z, decide ((minus s.y 1 false).toNat = 0))] s)

/-- DAA: the corrections $06 and $60, N, Z, C, with V open (R334). -/
def Obligations.DecimalAdjust : Prop :=
  ∀ s : State,
    let low := decide (s.flag .h = true ∨ 9 < s.a.toNat % 16)
    let high := decide (s.flag .c = true ∨ 0x99 < s.a.toNat ∨ (9 ≤ s.a.toNat / 16 ∧ 9 < s.a.toNat % 16))
    let r := BitVec.ofNat 8 (s.a.toNat + 0x06 * low.toNat + 0x60 * high.toNat)
    Runs .daa s fun t => ∃ v, Gives8 .a r ((.v, v) :: (.c, high) :: nzOf r) s t

/-- INC, INCA, INCB, DEC, DECA, DECB and the HCS12X word forms: the count and N, Z, V (R335, R336, R337, R338, R339,
R340, R344, R345, R346, R347, R348, R349). -/
def Obligations.IncrementsAndDecrements : Prop :=
  ∀ s : State, s.Inv →
    (∀ ea, Runs (.inc ea) s (ByteBecomes ea (plus · 1 false) incFlags s)) ∧
    Runs .inca s (Reg8Becomes .a (plus · 1 false) incFlags s) ∧
    Runs .incb s (Reg8Becomes .b (plus · 1 false) incFlags s) ∧
    (∀ ea, Runs (.dec ea) s (ByteBecomes ea (minus · 1 false) decFlags s)) ∧
    Runs .deca s (Reg8Becomes .a (minus · 1 false) decFlags s) ∧
    Runs .decb s (Reg8Becomes .b (minus · 1 false) decFlags s) ∧
    (s.params.variant = .hcs12x →
    (∀ ea, Runs (.incw ea) s (WordBecomes ea (plus · 1 false) incFlags s)) ∧
    Runs .incx s (Reg16Becomes .x (plus · 1 false) incFlags s) ∧
    Runs .incy s (Reg16Becomes .y (plus · 1 false) incFlags s) ∧
    (∀ ea, Runs (.decw ea) s (WordBecomes ea (minus · 1 false) decFlags s)) ∧
    Runs .decx s (Reg16Becomes .x (minus · 1 false) decFlags s) ∧
    Runs .decy s (Reg16Becomes .y (minus · 1 false) decFlags s))

/-- The compares set the flags of register minus operand and write nothing else (R382, R383, R384, R385, R386, R387,
R388, R389, R390, R391, R392). -/
def Obligations.Compares : Prop :=
  ∀ s : State,
    Runs .cba s (GivesFlags (subFlags s.a s.b false) s) ∧
    (∀ src, Runs (.cmpa src) s fun t => GivesFlags (subFlags s.a (src8Value src s) false) (src8After src s) t) ∧
    (∀ src, Runs (.cmpb src) s fun t => GivesFlags (subFlags s.b (src8Value src s) false) (src8After src s) t) ∧
    (∀ src, Runs (.cpd src) s fun t =>
      let u := src16After src s
      GivesFlags (subFlags (u.get16 .d) (src16Value src s) false) u t) ∧
    (∀ src, Runs (.cps src) s fun t =>
      let u := src16After src s
      GivesFlags (subFlags (u.get16 .sp) (src16Value src s) false) u t) ∧
    (∀ src, Runs (.cpx src) s fun t =>
      let u := src16After src s
      GivesFlags (subFlags (u.get16 .x) (src16Value src s) false) u t) ∧
    (∀ src, Runs (.cpy src) s fun t =>
      let u := src16After src s
      GivesFlags (subFlags (u.get16 .y) (src16Value src s) false) u t) ∧
    (s.params.variant = .hcs12x →
    (∀ src, Runs (.cped src) s fun t =>
      let u := src16After src s
      GivesFlags (underExtZ s.params.extZMode (s.flag .z) (subFlags (u.get16 .d) (src16Value src s) (s.flag .c))) u t) ∧
    (∀ src, Runs (.cpes src) s fun t =>
      let u := src16After src s
      GivesFlags (underExtZ s.params.extZMode (s.flag .z) (subFlags (u.get16 .sp) (src16Value src s) (s.flag .c))) u t) ∧
    (∀ src, Runs (.cpex src) s fun t =>
      let u := src16After src s
      GivesFlags (underExtZ s.params.extZMode (s.flag .z) (subFlags (u.get16 .x) (src16Value src s) (s.flag .c))) u t) ∧
    (∀ src, Runs (.cpey src) s fun t =>
      let u := src16After src s
      GivesFlags (underExtZ s.params.extZMode (s.flag .z) (subFlags (u.get16 .y) (src16Value src s) (s.flag .c))) u t))

/-- TST and BIT set N and Z and clear V (TST clears C too) and write nothing else (R393, R394, R395, R396, R397, R398,
R399, R400, R401, R402). -/
def Obligations.TestsAndBitTests : Prop :=
  ∀ s : State,
    (∀ ea, Runs (.tst ea) s fun t => GivesFlags ((.c, false) :: logicFlags (memByte ea s)) (afterMemByte ea s) t) ∧
    Runs .tsta s (GivesFlags ((.c, false) :: logicFlags s.a) s) ∧
    Runs .tstb s (GivesFlags ((.c, false) :: logicFlags s.b) s) ∧
    (∀ src, Runs (.bita src) s fun t => GivesFlags (logicFlags (s.a &&& src8Value src s)) (src8After src s) t) ∧
    (∀ src, Runs (.bitb src) s fun t => GivesFlags (logicFlags (s.b &&& src8Value src s)) (src8After src s) t) ∧
    (s.params.variant = .hcs12x →
    (∀ ea, Runs (.tstw ea) s fun t => GivesFlags ((.c, false) :: logicFlags (memWord ea s)) (afterMemWord ea s) t) ∧
    Runs .tstx s (GivesFlags ((.c, false) :: logicFlags s.x) s) ∧
    Runs .tsty s (GivesFlags ((.c, false) :: logicFlags s.y) s) ∧
    (∀ src, Runs (.bitx src) s fun t =>
      let u := src16After src s
      GivesFlags (logicFlags (u.x &&& src16Value src s)) u t) ∧
    (∀ src, Runs (.bity src) s fun t =>
      let u := src16After src s
      GivesFlags (logicFlags (u.y &&& src16Value src s)) u t))

/-- AND, OR and EOR of a register with the operand, N and Z from the result, V cleared (R422, R423, R424, R425, R426,
R427, R428, R429, R430, R431, R432, R433). -/
def Obligations.LogicalOperations : Prop :=
  ∀ s : State,
    (∀ src, Runs (.anda src) s fun t =>
      Gives8 .a (s.a &&& src8Value src s) (logicFlags (s.a &&& src8Value src s)) (src8After src s) t) ∧
    (∀ src, Runs (.andb src) s fun t =>
      Gives8 .b (s.b &&& src8Value src s) (logicFlags (s.b &&& src8Value src s)) (src8After src s) t) ∧
    (∀ src, Runs (.oraa src) s fun t =>
      Gives8 .a (s.a ||| src8Value src s) (logicFlags (s.a ||| src8Value src s)) (src8After src s) t) ∧
    (∀ src, Runs (.orab src) s fun t =>
      Gives8 .b (s.b ||| src8Value src s) (logicFlags (s.b ||| src8Value src s)) (src8After src s) t) ∧
    (∀ src, Runs (.eora src) s fun t =>
      Gives8 .a (s.a ^^^ src8Value src s) (logicFlags (s.a ^^^ src8Value src s)) (src8After src s) t) ∧
    (∀ src, Runs (.eorb src) s fun t =>
      Gives8 .b (s.b ^^^ src8Value src s) (logicFlags (s.b ^^^ src8Value src s)) (src8After src s) t) ∧
    (s.params.variant = .hcs12x →
    (∀ src, Runs (.andx src) s fun t =>
      let u := src16After src s
      Gives16 .x (u.x &&& src16Value src s) (logicFlags (u.x &&& src16Value src s)) u t) ∧
    (∀ src, Runs (.andy src) s fun t =>
      let u := src16After src s
      Gives16 .y (u.y &&& src16Value src s) (logicFlags (u.y &&& src16Value src s)) u t) ∧
    (∀ src, Runs (.orx src) s fun t =>
      let u := src16After src s
      Gives16 .x (u.x ||| src16Value src s) (logicFlags (u.x ||| src16Value src s)) u t) ∧
    (∀ src, Runs (.ory src) s fun t =>
      let u := src16After src s
      Gives16 .y (u.y ||| src16Value src s) (logicFlags (u.y ||| src16Value src s)) u t) ∧
    (∀ src, Runs (.eorx src) s fun t =>
      let u := src16After src s
      Gives16 .x (u.x ^^^ src16Value src s) (logicFlags (u.x ^^^ src16Value src s)) u t) ∧
    (∀ src, Runs (.eory src) s fun t =>
      let u := src16After src s
      Gives16 .y (u.y ^^^ src16Value src s) (logicFlags (u.y ^^^ src16Value src s)) u t))

/-- NEG and COM in memory, A, B and on HCS12X words, X, Y: two's and one's complement (R353, R354, R355, R356, R357,
R358, R434, R435, R436, R437, R438, R439). -/
def Obligations.NegationsAndComplements : Prop :=
  ∀ s : State, s.Inv →
    (∀ ea, Runs (.neg ea) s (ByteBecomes ea (minus 0 · false) (subFlags 0 · false) s)) ∧
    Runs .nega s (Reg8Becomes .a (minus 0 · false) (subFlags 0 · false) s) ∧
    Runs .negb s (Reg8Becomes .b (minus 0 · false) (subFlags 0 · false) s) ∧
    (∀ ea, Runs (.com ea) s (ByteBecomes ea (~~~ ·) (fun m => (.c, true) :: logicFlags (~~~ m)) s)) ∧
    Runs .coma s (Reg8Becomes .a (~~~ ·) (fun m => (.c, true) :: logicFlags (~~~ m)) s) ∧
    Runs .comb s (Reg8Becomes .b (~~~ ·) (fun m => (.c, true) :: logicFlags (~~~ m)) s) ∧
    (s.params.variant = .hcs12x →
    (∀ ea, Runs (.negw ea) s (WordBecomes ea (minus 0 · false) (subFlags 0 · false) s)) ∧
    Runs .negx s (Reg16Becomes .x (minus 0 · false) (subFlags 0 · false) s) ∧
    Runs .negy s (Reg16Becomes .y (minus 0 · false) (subFlags 0 · false) s) ∧
    (∀ ea, Runs (.comw ea) s (WordBecomes ea (~~~ ·) (fun m => (.c, true) :: logicFlags (~~~ m)) s)) ∧
    Runs .comx s (Reg16Becomes .x (~~~ ·) (fun m => (.c, true) :: logicFlags (~~~ m)) s) ∧
    Runs .comy s (Reg16Becomes .y (~~~ ·) (fun m => (.c, true) :: logicFlags (~~~ m)) s))

/-- ANDCC clears and ORCC sets condition code bits, ORCC never X; CLC, CLI, CLV, SEC, SEI, SEV (R421, R440, R441,
R442, R443, R444, R445, R446, R447). -/
def Obligations.ConditionCodeMasks : Prop :=
  ∀ s : State,
    (∀ ii, Runs (.andcc ii) s fun t => (∀ f, t.flag f = (s.flag f && flagOf ii f)) ∧ Unchanged [.ccr] s t) ∧
    (∀ ii, Runs (.orcc ii) s fun t =>
      (∀ f, t.flag f = if f = .x then s.flag .x else (s.flag f || flagOf ii f)) ∧ Unchanged [.ccr] s t) ∧
    Runs .clc s (GivesFlags [(.c, false)] s) ∧ Runs .cli s (GivesFlags [(.i, false)] s) ∧
    Runs .clv s (GivesFlags [(.v, false)] s) ∧ Runs .sec s (GivesFlags [(.c, true)] s) ∧
    Runs .sei s (GivesFlags [(.i, true)] s) ∧ Runs .sev s (GivesFlags [(.v, true)] s)

/-- BCLR, BSET and on HCS12X BTAS: the bits of the mask in a byte of memory (R448, R449, R450). -/
def Obligations.MemoryBitInstructions : Prop :=
  ∀ s : State, s.Inv →
    (∀ ea mm, Runs (.bclr ea mm) s (ByteBecomes ea (· &&& ~~~ mm) (fun m => logicFlags (m &&& ~~~ mm)) s)) ∧
    (∀ ea mm, Runs (.bset ea mm) s (ByteBecomes ea (· ||| mm) (fun m => logicFlags (m ||| mm)) s)) ∧
    (s.params.variant = .hcs12x → ∀ ea mm, Runs (.btas ea mm) s (ByteBecomes ea (· ||| mm)
      (fun m => logicFlags (if s.params.btasFlagSource = .operand then m else m &&& mm)) s))

/-- ASL, LSL, ASR, LSR, ROL, ROR in memory, A, B, D and on HCS12X words, X, Y (R471). -/
def Obligations.ShiftsAndRotates : Prop :=
  ∀ s : State, s.Inv →
    (∀ ea, Runs (.asl ea) s (ByteBecomes ea shiftedLeft (fun m => shiftFlags (shiftedLeft m) (topBit m)) s)) ∧
    Runs .asla s (Reg8Becomes .a shiftedLeft (fun m => shiftFlags (shiftedLeft m) (topBit m)) s) ∧
    Runs .aslb s (Reg8Becomes .b shiftedLeft (fun m => shiftFlags (shiftedLeft m) (topBit m)) s) ∧
    Runs .asld s (Reg16Becomes .d shiftedLeft (fun m => shiftFlags (shiftedLeft m) (topBit m)) s) ∧
    (∀ ea, Runs (.lsl ea) s (ByteBecomes ea shiftedLeft (fun m => shiftFlags (shiftedLeft m) (topBit m)) s)) ∧
    Runs .lsla s (Reg8Becomes .a shiftedLeft (fun m => shiftFlags (shiftedLeft m) (topBit m)) s) ∧
    Runs .lslb s (Reg8Becomes .b shiftedLeft (fun m => shiftFlags (shiftedLeft m) (topBit m)) s) ∧
    Runs .lsld s (Reg16Becomes .d shiftedLeft (fun m => shiftFlags (shiftedLeft m) (topBit m)) s) ∧
    (∀ ea, Runs (.asr ea) s (ByteBecomes ea halved (fun m => shiftFlags (halved m) (lowBit m)) s)) ∧
    Runs .asra s (Reg8Becomes .a halved (fun m => shiftFlags (halved m) (lowBit m)) s) ∧
    Runs .asrb s (Reg8Becomes .b halved (fun m => shiftFlags (halved m) (lowBit m)) s) ∧
    (∀ ea, Runs (.lsr ea) s (ByteBecomes ea shiftedRight (fun m => shiftFlags (shiftedRight m) (lowBit m)) s)) ∧
    Runs .lsra s (Reg8Becomes .a shiftedRight (fun m => shiftFlags (shiftedRight m) (lowBit m)) s) ∧
    Runs .lsrb s (Reg8Becomes .b shiftedRight (fun m => shiftFlags (shiftedRight m) (lowBit m)) s) ∧
    Runs .lsrd s (Reg16Becomes .d shiftedRight (fun m => shiftFlags (shiftedRight m) (lowBit m)) s) ∧
    (∀ ea, Runs (.rol ea) s (ByteBecomes ea (rotatedLeft (s.flag .c)) (fun m => shiftFlags ((rotatedLeft (s.flag .c)) m) (topBit m)) s)) ∧
    Runs .rola s (Reg8Becomes .a (rotatedLeft (s.flag .c)) (fun m => shiftFlags ((rotatedLeft (s.flag .c)) m) (topBit m)) s) ∧
    Runs .rolb s (Reg8Becomes .b (rotatedLeft (s.flag .c)) (fun m => shiftFlags ((rotatedLeft (s.flag .c)) m) (topBit m)) s) ∧
    (∀ ea, Runs (.ror ea) s (ByteBecomes ea (rotatedRight (s.flag .c)) (fun m => shiftFlags ((rotatedRight (s.flag .c)) m) (lowBit m)) s)) ∧
    Runs .rora s (Reg8Becomes .a (rotatedRight (s.flag .c)) (fun m => shiftFlags ((rotatedRight (s.flag .c)) m) (lowBit m)) s) ∧
    Runs .rorb s (Reg8Becomes .b (rotatedRight (s.flag .c)) (fun m => shiftFlags ((rotatedRight (s.flag .c)) m) (lowBit m)) s) ∧
    (s.params.variant = .hcs12x →
    (∀ ea, Runs (.aslw ea) s (WordBecomes ea shiftedLeft (fun m => shiftFlags (shiftedLeft m) (topBit m)) s)) ∧
    Runs .aslx s (Reg16Becomes .x shiftedLeft (fun m => shiftFlags (shiftedLeft m) (topBit m)) s) ∧
    Runs .asly s (Reg16Becomes .y shiftedLeft (fun m => shiftFlags (shiftedLeft m) (topBit m)) s) ∧
    (∀ ea, Runs (.asrw ea) s (WordBecomes ea halved (fun m => shiftFlags (halved m) (lowBit m)) s)) ∧
    Runs .asrx s (Reg16Becomes .x halved (fun m => shiftFlags (halved m) (lowBit m)) s) ∧
    Runs .asry s (Reg16Becomes .y halved (fun m => shiftFlags (halved m) (lowBit m)) s) ∧
    (∀ ea, Runs (.lsrw ea) s (WordBecomes ea shiftedRight (fun m => shiftFlags (shiftedRight m) (lowBit m)) s)) ∧
    Runs .lsrx s (Reg16Becomes .x shiftedRight (fun m => shiftFlags (shiftedRight m) (lowBit m)) s) ∧
    Runs .lsry s (Reg16Becomes .y shiftedRight (fun m => shiftFlags (shiftedRight m) (lowBit m)) s) ∧
    (∀ ea, Runs (.rolw ea) s (WordBecomes ea (rotatedLeft (s.flag .c)) (fun m => shiftFlags ((rotatedLeft (s.flag .c)) m) (topBit m)) s)) ∧
    Runs .rolx s (Reg16Becomes .x (rotatedLeft (s.flag .c)) (fun m => shiftFlags ((rotatedLeft (s.flag .c)) m) (topBit m)) s) ∧
    Runs .roly s (Reg16Becomes .y (rotatedLeft (s.flag .c)) (fun m => shiftFlags ((rotatedLeft (s.flag .c)) m) (topBit m)) s) ∧
    (∀ ea, Runs (.rorw ea) s (WordBecomes ea (rotatedRight (s.flag .c)) (fun m => shiftFlags ((rotatedRight (s.flag .c)) m) (lowBit m)) s)) ∧
    Runs .rorx s (Reg16Becomes .x (rotatedRight (s.flag .c)) (fun m => shiftFlags ((rotatedRight (s.flag .c)) m) (lowBit m)) s) ∧
    Runs .rory s (Reg16Becomes .y (rotatedRight (s.flag .c)) (fun m => shiftFlags ((rotatedRight (s.flag .c)) m) (lowBit m)) s))

/-- MUL, EMUL, EMULS, EMACS: the product and the flags the spec gives (R520, R521, R522, R523). -/
def Obligations.Multiplications : Prop :=
  ∀ s : State, s.Inv →
    Runs .mul s (Gives16 .d (BitVec.ofNat 16 (s.a.toNat * s.b.toNat))
      [(.c, decide (128 ≤ s.a.toNat * s.b.toNat % 256))] s) ∧
    (Runs .emul s fun t =>
      let p := s.d.toNat * s.y.toNat
      t.y = BitVec.ofNat 16 (p / 65536) ∧ t.d = BitVec.ofNat 16 p ∧
        FlagsSet [(.n, decide (2 ^ 31 ≤ p)), (.z, decide (p = 0)), (.c, decide (2 ^ 15 ≤ p % 2 ^ 16))] s t ∧
        Unchanged [.a, .b, .y, .ccr] s t) ∧
    (Runs .emuls s fun t =>
      let p := s.d.toInt * s.y.toInt
      t.y = BitVec.ofInt 16 (p / 65536) ∧ t.d = BitVec.ofInt 16 p ∧
        FlagsSet [(.n, decide (p < 0)), (.z, decide (p = 0)), (.c, decide (2 ^ 15 ≤ p % 2 ^ 16))] s t ∧
        Unchanged [.a, .b, .y, .ccr] s t) ∧
    ∀ hhll, Runs (.emacs hhll) s fun t =>
      let v := (s.touched16 s.x).touched16 s.y
      let p := (s.read16 s.x).toInt * ((s.touched16 s.x).read16 s.y).toInt
      let acc := v.read16 hhll ++ (v.touched16 hhll).read16 (hhll + 2)
      let r := BitVec.ofInt 32 (acc.toInt + p)
      let u := (v.touched16 hhll).touched16 (hhll + 2)
      Stored (wordStores u hhll (r.extractLsb' 16 16) ++
        wordStores (u.write16 hhll (r.extractLsb' 16 16)) (hhll + 2) (r.extractLsb' 0 16)) u t ∧
      FlagsSet ((.v, decide (acc.toInt + p < -(2 ^ 31) ∨ 2 ^ 31 ≤ acc.toInt + p)) ::
        (.c, decide (2 ^ 16 ≤ acc.toNat % 2 ^ 16 + (p % 2 ^ 16).toNat)) :: nzOf r) s t ∧
      Unchanged [.ccr, .mem, .ppage, .gpage, .devices] u t

/-- EDIV, EDIVS, FDIV, IDIV, IDIVS: quotient, remainder and flags, also where the division cannot be done (R524, R525,
R526, R527, R528). -/
def Obligations.Divisions : Prop :=
  ∀ s : State,
    (Runs .ediv s fun t =>
      let n := 65536 * s.y.toNat + s.d.toNat
      let d := s.x.toNat
      (d = 0 → ∃ fn fz fv, FlagsSet [(.c, true), (.n, fn), (.z, fz), (.v, fv)] s t ∧ Unchanged [.ccr] s t) ∧
      (d ≠ 0 → 65535 < n / d →
        ∃ fn fz, FlagsSet [(.c, false), (.v, true), (.n, fn), (.z, fz)] s t ∧ Unchanged [.ccr] s t) ∧
      (d ≠ 0 → n / d ≤ 65535 → t.y.toNat = n / d ∧ t.d.toNat = n % d ∧
        FlagsSet ((.c, false) :: (.v, false) :: nzOf t.y) s t ∧ Unchanged [.a, .b, .y, .ccr] s t)) ∧
    (Runs .edivs s fun t =>
      let n := (s.y ++ s.d).toInt
      let d := s.x.toInt
      (d = 0 → ∃ fn fz fv, FlagsSet [(.c, true), (.n, fn), (.z, fz), (.v, fv)] s t ∧ Unchanged [.ccr] s t) ∧
      (d ≠ 0 → 32767 < n.tdiv d ∨ n.tdiv d < -32768 →
        ∃ fn fz, FlagsSet [(.c, false), (.v, true), (.n, fn), (.z, fz)] s t ∧ Unchanged [.ccr] s t) ∧
      (d ≠ 0 → -32768 ≤ n.tdiv d → n.tdiv d ≤ 32767 → t.y.toInt = n.tdiv d ∧ t.d.toInt = n - n.tdiv d * d ∧
        FlagsSet ((.c, false) :: (.v, false) :: nzOf t.y) s t ∧ Unchanged [.a, .b, .y, .ccr] s t)) ∧
    (Runs .fdiv s fun t =>
      let n := s.d.toNat
      let d := s.x.toNat
      Unchanged [.a, .b, .x, .ccr] s t ∧
      (d ≤ n → t.x = 0xFFFF#16 ∧ FlagsSet [(.c, decide (d = 0)), (.v, true), (.z, false)] s t) ∧
      (n < d → t.x.toNat = n * 65536 / d ∧ t.d.toNat = n * 65536 % d ∧
        FlagsSet [(.c, false), (.v, false), (.z, decide (n * 65536 / d = 0))] s t)) ∧
    (Runs .idiv s fun t =>
      let n := s.d.toNat
      let d := s.x.toNat
      Unchanged [.a, .b, .x, .ccr] s t ∧
      (d = 0 → t.x = 0xFFFF#16 ∧ FlagsSet [(.c, true), (.v, false), (.z, false)] s t) ∧
      (d ≠ 0 → t.x.toNat = n / d ∧ t.d.toNat = n % d ∧
        FlagsSet [(.c, false), (.v, false), (.z, decide (n / d = 0))] s t)) ∧
    (Runs .idivs s fun t =>
      let n := s.d.toInt
      let d := s.x.toInt
      Unchanged [.a, .b, .x, .ccr] s t ∧
      (d = 0 → ∃ fn fz fv, FlagsSet [(.c, true), (.n, fn), (.z, fz), (.v, fv)] s t) ∧
      (d ≠ 0 → t.x = BitVec.ofInt 16 (n.tdiv d) ∧ t.d.toInt = n - n.tdiv d * d ∧
        FlagsSet ((.c, false) :: (.v, decide (32767 < n.tdiv d)) :: nzOf t.x) s t))

/-- MAXA, MINA, EMAXD, EMIND and MAXM, MINM, EMAXM, EMINM: the larger or smaller unsigned value (R540, R541, R542,
R543, R544, R545, R546, R547). -/
def Obligations.MinimaAndMaxima : Prop :=
  ∀ s : State, s.Inv →
    (∀ xb, Runs (.maxa xb) s fun t =>
      let m := memByte (.idx xb) s
      Gives8 .a (BitVec.ofNat 8 (max s.a.toNat m.toNat)) (subFlags s.a m false) (afterMemByte (.idx xb) s) t) ∧
    (∀ xb, Runs (.mina xb) s fun t =>
      let m := memByte (.idx xb) s
      Gives8 .a (BitVec.ofNat 8 (min s.a.toNat m.toNat)) (subFlags s.a m false) (afterMemByte (.idx xb) s) t) ∧
    (∀ xb, Runs (.maxm xb) s (ByteBecomes (.idx xb) (fun m => BitVec.ofNat 8 (max s.a.toNat m.toNat))
      (subFlags s.a · false) s)) ∧
    (∀ xb, Runs (.minm xb) s (ByteBecomes (.idx xb) (fun m => BitVec.ofNat 8 (min s.a.toNat m.toNat))
      (subFlags s.a · false) s)) ∧
    (∀ xb, Runs (.emaxd xb) s fun t =>
      let m := memWord (.idx xb) s
      Gives16 .d (BitVec.ofNat 16 (max s.d.toNat m.toNat)) (subFlags s.d m false) (afterMemWord (.idx xb) s) t) ∧
    (∀ xb, Runs (.emind xb) s fun t =>
      let m := memWord (.idx xb) s
      Gives16 .d (BitVec.ofNat 16 (min s.d.toNat m.toNat)) (subFlags s.d m false) (afterMemWord (.idx xb) s) t) ∧
    (∀ xb, Runs (.emaxm xb) s (WordBecomes (.idx xb) (fun m => BitVec.ofNat 16 (max s.d.toNat m.toNat))
      (subFlags s.d · false) s)) ∧
    (∀ xb, Runs (.eminm xb) s (WordBecomes (.idx xb) (fun m => BitVec.ofNat 16 (min s.d.toNat m.toNat))
      (subFlags s.d · false) s))

/-- TBL and ETBL: linear interpolation between two table entries (also a descending pair, and C: the model follows the
rule, log entry 11) (R550, R551). The model's choice, log entry 11: it follows the rules' floor of a negative product,
and their C, on every operand, which U10 advises a proof to keep clear of. -/
def Obligations.TableInterpolation : Prop :=
  ∀ s : State,
    (∀ xb, Runs (.tbl xb) s fun t =>
      let u := xbAfter xb s
      let y1 : Int := (u.read8 (xbAddress xb s)).toNat
      let y2 : Int := (u.read8 (xbAddress xb s + 1)).toNat
      let p := s.b.toNat * (y2 - y1)
      let r := BitVec.ofInt 8 (y1 + p / 256)
      Gives8 .a r ((.c, decide (128 ≤ p % 256)) :: nzOf r) (u.touched16 (xbAddress xb s)) t) ∧
    (∀ xb, Runs (.etbl xb) s fun t =>
      let u := xbAfter xb s
      let v := u.touched16 (xbAddress xb s)
      let y1 : Int := (u.read16 (xbAddress xb s)).toNat
      let y2 : Int := (v.read16 (xbAddress xb s + 2)).toNat
      let p := s.b.toNat * (y2 - y1)
      let r := BitVec.ofInt 16 (y1 + p / 256)
      Gives16 .d r ((.c, decide (128 ≤ p % 256)) :: nzOf r) (v.touched16 (xbAddress xb s + 2)) t)

/-- MEM stores the grade of A in the trapezoid at X and advances X and Y (a slope of $00 stands for 255: the model's
choice, log entry 11) (R562). The model's choice, log entry 11: a slope of $00 is evaluated, as R562 reads it, where
U11 advises to refuse it. -/
def Obligations.MembershipGrade : Prop :=
  ∀ s : State, s.Inv →
    let v := s.touched16 s.x
    let u := v.touched16 (s.x + 2)
    let a := s.a.toNat
    let p1 := (s.read8 s.x).toNat
    let p2 := (s.read8 (s.x + 1)).toNat
    let s1 := (v.read8 (s.x + 2)).toNat
    let s2 := (v.read8 (s.x + 3)).toNat
    let left := if s1 = 0 then 255 else (a - p1) * s1
    let right := if s2 = 0 then 255 else (p2 - a) * s2
    let grade := if a < p1 ∨ p2 < a then 0 else min (min left right) 255
    Runs .mem s fun t => Stored [(u.place s.y, BitVec.ofNat 8 grade)] u t ∧ t.x = s.x + 4 ∧ t.y = s.y + 1 ∧
      FlagsKept [.s, .x, .i] s t ∧ Unchanged [.x, .y, .ccr, .mem, .ppage, .gpage, .devices] u t

/-- REV and REVW complete, and for one rule in plain memory its smallest input raises its outputs (R93, R560, R563,
R564, R675). Any A at the start and the weighting of REVW: log entry 11; the bound of one step: log entry 15. It says
nothing, beyond completion, of several rules in a list, of a start with V = 1 or of arriving requests. -/
def Obligations.RuleEvaluation : Prop :=
  ∀ s : State,
    (Runs .rev s fun t => (t.pc = s.pc ∨ t.pc = s.pc - 2) ∧ FlagsKept [.s, .x, .i] s t ∧
      Unchanged [.a, .x, .pc, .ccr, .mem, .ppage, .gpage, .devices, .pending, .arrival, .fresh] s t) ∧
    (Runs .revw s fun t => (t.pc = s.pc ∨ t.pc = s.pc - 2) ∧ FlagsKept [.s, .x, .i, .c] s t ∧
      Unchanged [.a, .x, .y, .pc, .ccr, .mem, .ppage, .gpage, .devices, .pending, .arrival, .fresh] s t) ∧
    (s.Inv → s.Flat → s.arrival = none → s.flag .v = false →
      (∀ ins outs : List Byte, ins.length + outs.length ≤ 1000 → (∀ e ∈ ins ++ outs, e.toNat < 0xFE) →
        s.Holds s.x (ins ++ 0xFE#8 :: outs ++ [0xFF#8]) →
        (∀ o ∈ outs, ∀ k, k < ins.length + outs.length + 2 → s.x + BitVec.ofNat 16 k ≠ s.y + zext8 o) →
        Runs .rev s fun t =>
          let least := s.leastOf s.a (ins.map (s.y + zext8 ·))
          t.a.toNat = least ∧ t.x = s.x + BitVec.ofNat 16 (ins.length + outs.length + 2) ∧ t.pc = s.pc ∧
          t.flag .v = true ∧
          ∀ addr, (t.read8 addr).toNat =
            if addr ∈ outs.map (s.y + zext8 ·) then max least (s.read8 addr).toNat else (s.read8 addr).toNat) ∧
      ∀ ins outs : List Word, ins.length + outs.length ≤ 1000 → (∀ e ∈ ins ++ outs, e.toNat < 0xFFFE) →
        s.HoldsWords s.x (ins ++ 0xFFFE#16 :: outs ++ [0xFFFF#16]) →
        (∀ o ∈ outs, ∀ k, k < 2 * (ins.length + outs.length + 2) → s.x + BitVec.ofNat 16 k ≠ o) →
        Runs .revw s fun t =>
          let least := s.leastOf s.a ins
          let truth := if s.flag .c then least * ((s.read8 s.y).toNat + 1) / 256 else least
          t.a.toNat = truth ∧ t.y = (if s.flag .c then s.y + 1 else s.y) ∧
          t.x = s.x + BitVec.ofNat 16 (2 * (ins.length + outs.length + 2)) ∧ t.pc = s.pc ∧ t.flag .v = true ∧
          ∀ addr, (t.read8 addr).toNat =
            if addr ∈ outs then max truth (s.read8 addr).toNat else (s.read8 addr).toNat)

/-- WAV sums products and weights, an interrupted WAV goes on to the same sums (that the cases of U14 run is the
model's choice, log entry 11) (R565, R566, R675). The model's choice, log entry 11, and not the spec's: WAV with B = 0
and wavr without a record complete and change only the listed pieces (U14 says to refuse both). The arriving request
is an input of the model, log entry 14; the three words of the interrupted WAV are free and a record keeps the sums,
log entry 16. What wavr gives is stated only for a WAV that it resumes. -/
def Obligations.WeightedAverage : Prop :=
  ∀ s : State,
    let products := fun n =>
      ((List.range n).map fun k => s.elementValue s.x s.y k * s.elementWeight s.x s.y k).sum
    let weights := fun n => ((List.range n).map fun k => s.elementWeight s.x s.y k).sum
    (∀ i, i = .wav ∨ i = .wavr → Runs i s fun t => FlagsKept [.s, .x, .i] s t ∧
      Unchanged [.a, .b, .x, .y, .sp, .pc, .ccr, .mem, .ppage, .gpage, .devices, .pending, .arrival, .wavFrames]
        s t) ∧
    (s.b ≠ 0 → s.arrival = none → Runs .wav s fun t =>
      t.y ++ t.d = BitVec.ofNat 32 (products s.b.toNat) ∧ t.x = BitVec.ofNat 16 (weights s.b.toNat) ∧
        t.flag .z = true ∧ FlagsKept [.s, .x, .i] s t ∧
        Unchanged [.a, .b, .x, .y, .ccr] (s.elementsRead s.x s.y s.b.toNat) t) ∧
    ∀ k r, s.Inv → s.Flat → s.arrival = some (k, r) → s.interruptible r = true → k + 1 < s.b.toNat →
      (∀ j m, 1 ≤ j → j ≤ 6 → m < s.b.toNat →
        s.sp - BitVec.ofNat 16 j ≠ s.x + BitVec.ofNat 16 m ∧ s.sp - BitVec.ofNat 16 j ≠ s.y + BitVec.ofNat 16 m) →
      ∃ t, exec .wav s = .next t ∧ t.sp = s.sp - 6 ∧ t.pc = s.pc - 1 ∧ t.pending = s.pending ++ [r] ∧
        Runs .wavr { t with pc := s.pc } fun u =>
          u.y ++ u.d = BitVec.ofNat 32 (products s.b.toNat) ∧ u.x = BitVec.ofNat 16 (weights s.b.toNat) ∧
            u.flag .z = true ∧ u.sp = s.sp ∧ u.pc = s.pc

/-- The 18 short and the 18 long branches: the condition of each, and the target (R570, R571, R572, R573, R574, R592).
-/
def Obligations.ConditionalBranches : Prop :=
  ∀ (s : State) (rr : Byte) (qqrr : Word),
    Runs (.bcc rr) s (Branches (!s.flag .c) (relative s rr) s) ∧
    Runs (.bcs rr) s (Branches (s.flag .c) (relative s rr) s) ∧
    Runs (.beq rr) s (Branches (s.flag .z) (relative s rr) s) ∧
    Runs (.bge rr) s (Branches (s.flag .n == s.flag .v) (relative s rr) s) ∧
    Runs (.bgt rr) s (Branches (!s.flag .z && s.flag .n == s.flag .v) (relative s rr) s) ∧
    Runs (.bhi rr) s (Branches (!s.flag .c && !s.flag .z) (relative s rr) s) ∧
    Runs (.bhs rr) s (Branches (!s.flag .c) (relative s rr) s) ∧
    Runs (.ble rr) s (Branches (s.flag .z || s.flag .n != s.flag .v) (relative s rr) s) ∧
    Runs (.blo rr) s (Branches (s.flag .c) (relative s rr) s) ∧
    Runs (.bls rr) s (Branches (s.flag .c || s.flag .z) (relative s rr) s) ∧
    Runs (.blt rr) s (Branches (s.flag .n != s.flag .v) (relative s rr) s) ∧
    Runs (.bmi rr) s (Branches (s.flag .n) (relative s rr) s) ∧
    Runs (.bne rr) s (Branches (!s.flag .z) (relative s rr) s) ∧
    Runs (.bpl rr) s (Branches (!s.flag .n) (relative s rr) s) ∧
    Runs (.bra rr) s (Branches (true) (relative s rr) s) ∧
    Runs (.brn rr) s (Branches (false) (relative s rr) s) ∧
    Runs (.bvc rr) s (Branches (!s.flag .v) (relative s rr) s) ∧
    Runs (.bvs rr) s (Branches (s.flag .v) (relative s rr) s) ∧
    Runs (.lbcc qqrr) s (Branches (!s.flag .c) (relative s qqrr) s) ∧
    Runs (.lbcs qqrr) s (Branches (s.flag .c) (relative s qqrr) s) ∧
    Runs (.lbeq qqrr) s (Branches (s.flag .z) (relative s qqrr) s) ∧
    Runs (.lbge qqrr) s (Branches (s.flag .n == s.flag .v) (relative s qqrr) s) ∧
    Runs (.lbgt qqrr) s (Branches (!s.flag .z && s.flag .n == s.flag .v) (relative s qqrr) s) ∧
    Runs (.lbhi qqrr) s (Branches (!s.flag .c && !s.flag .z) (relative s qqrr) s) ∧
    Runs (.lbhs qqrr) s (Branches (!s.flag .c) (relative s qqrr) s) ∧
    Runs (.lble qqrr) s (Branches (s.flag .z || s.flag .n != s.flag .v) (relative s qqrr) s) ∧
    Runs (.lblo qqrr) s (Branches (s.flag .c) (relative s qqrr) s) ∧
    Runs (.lbls qqrr) s (Branches (s.flag .c || s.flag .z) (relative s qqrr) s) ∧
    Runs (.lblt qqrr) s (Branches (s.flag .n != s.flag .v) (relative s qqrr) s) ∧
    Runs (.lbmi qqrr) s (Branches (s.flag .n) (relative s qqrr) s) ∧
    Runs (.lbne qqrr) s (Branches (!s.flag .z) (relative s qqrr) s) ∧
    Runs (.lbpl qqrr) s (Branches (!s.flag .n) (relative s qqrr) s) ∧
    Runs (.lbra qqrr) s (Branches (true) (relative s qqrr) s) ∧
    Runs (.lbrn qqrr) s (Branches (false) (relative s qqrr) s) ∧
    Runs (.lbvc qqrr) s (Branches (!s.flag .v) (relative s qqrr) s) ∧
    Runs (.lbvs qqrr) s (Branches (s.flag .v) (relative s qqrr) s)

/-- BRCLR and BRSET branch when all the bits of the mask are clear, or set (R610, R611). -/
def Obligations.BranchesOnMemoryBits : Prop :=
  ∀ (s : State) (ea : Ea) (mm rr : Byte),
    let m := memByte ea s
    Runs (.brclr ea mm rr) s (Branches (decide (∀ k : Fin 8, mm.getLsbD k = true → m.getLsbD k = false))
      (relative s rr) (afterMemByte ea s)) ∧
    Runs (.brset ea mm rr) s (Branches (decide (∀ k : Fin 8, mm.getLsbD k = true → m.getLsbD k = true))
      (relative s rr) (afterMemByte ea s))

/-- DBEQ, DBNE, IBEQ, IBNE, TBEQ, TBNE: count, test for zero, branch (R612, R613, R614, R615, R616, R617). -/
def Obligations.LoopPrimitives : Prop :=
  ∀ (s : State) (r : LoopReg) (off : BitVec 9),
    let down := (loopValue r s + (2 ^ loopWidth r - 1)) % 2 ^ loopWidth r
    let up := (loopValue r s + 1) % 2 ^ loopWidth r
    Runs (.dbeq r off) s (Loops r down (decide (down = 0)) off s) ∧
    Runs (.dbne r off) s (Loops r down (decide (down ≠ 0)) off s) ∧
    Runs (.ibeq r off) s (Loops r up (decide (up = 0)) off s) ∧
    Runs (.ibne r off) s (Loops r up (decide (up ≠ 0)) off s) ∧
    Runs (.tbeq r off) s (Loops r (loopValue r s) (decide ((loopValue r s) = 0)) off s) ∧
    Runs (.tbne r off) s (Loops r (loopValue r s) (decide ((loopValue r s) ≠ 0)) off s)

/-- JMP, BSR, JSR, RTS, CALL, RTC (which page the stack accesses of CALL and RTC see: DEDUCED, log entry 21) (R618,
R619, R620, R621, R622, R623). The model's reading of the spec, DEDUCED: RTC reads its return address with the page it
has just pulled and CALL pushes with the old page, log entry 21; the pointer record of an indirect CALL, log entry 10.
-/
def Obligations.JumpsCallsAndReturns : Prop :=
  ∀ s : State, s.Inv →
    (∀ ea, Runs (.jmp ea) s (Branches true (eaAddress ea s) (eaAfter ea s))) ∧
    (∀ rr, Runs (.bsr rr) s fun t => ∃ u, Pushes 2 (wordStores s (s.sp - 2) s.pc) s u ∧
      t.pc = relative s rr ∧ t.refilled = true ∧ Unchanged [.pc, .refilled] u t) ∧
    (∀ ea, Runs (.jsr ea) s fun t =>
      let v := eaAfter ea s
      ∃ u, Pushes 2 (wordStores v (v.sp - 2) s.pc) v u ∧ t.pc = eaAddress ea s ∧ t.refilled = true ∧
        Unchanged [.pc, .refilled] u t) ∧
    (Runs .rts s fun t => t.pc = s.read16 s.sp ∧ t.sp = s.sp + 2 ∧ t.refilled = true ∧
      Unchanged [.pc, .sp, .refilled] (s.touched16 s.sp) t) ∧
    (∀ op, Runs (.call op) s fun t =>
      let v := match op with
        | .direct ea _ => eaAfter ea s
        | .indirect xb => (s.touched16 (indexedAddress xb s)).touched8 (indexedAddress xb s + 2)
      ∃ m u, Pushes 2 (wordStores v (v.sp - 2) s.pc) v m ∧ Pushes 1 [(m.place (m.sp - 1), m.ppage)] m u ∧
        t.refilled = true ∧ Unchanged [.pc, .ppage, .refilled] u t ∧
        match op with
        | .direct ea pg => t.pc = eaAddress ea s ∧ t.ppage = pg
        | .indirect xb =>
          t.pc = s.read16 (indexedAddress xb s) ∧
            t.ppage = (s.touched16 (indexedAddress xb s)).read8 (indexedAddress xb s + 2)) ∧
    (Runs .rtc s fun t =>
      let u := { s.touched8 s.sp with ppage := s.read8 s.sp }
      t.pc = u.read16 (s.sp + 1) ∧ t.sp = s.sp + 3 ∧ t.refilled = true ∧
        Unchanged [.pc, .sp, .refilled] (u.touched16 (s.sp + 1)) t)
end

