-- ==== Sys2Proof/Laws/Memory.lean ====
section
/-! SUPPORT. The laws of a memory in canonical form, and of the two halves of a word. -/

namespace Sys2Proof

@[simp] theorem wordOf_high (hi lo : Byte) : (wordOf hi lo).high = hi := by
  apply BitVec.eq_of_getLsbD_eq
  intro i hi'
  simp only [wordOf, Word.high, BitVec.getLsbD_extractLsb', BitVec.getLsbD_append]
  have h1 : ¬ (8 + i < 8) := by omega
  have h2 : 8 + i - 8 = i := by omega
  simp [hi', h2]

@[simp] theorem wordOf_low (hi lo : Byte) : (wordOf hi lo).low = lo := by
  apply BitVec.eq_of_getLsbD_eq
  intro i hi'
  simp only [wordOf, Word.low, BitVec.getLsbD_setWidth, BitVec.getLsbD_append]
  simp [hi']

@[simp] theorem wordOf_high_low (w : Word) : wordOf w.high w.low = w := by
  apply BitVec.eq_of_getLsbD_eq
  intro i hi
  simp only [wordOf, Word.high, Word.low, BitVec.getLsbD_append, BitVec.getLsbD_setWidth,
    BitVec.getLsbD_extractLsb']
  by_cases h : i < 8
  · simp [h]
  · have h1 : 8 + (i - 8) = i := by omega
    have h2 : i - 8 < 8 := by omega
    simp [h, h1, h2]

namespace Machine

theorem memWfFrom_mono {b c : Nat} {m : List Host.Cell} (hbc : c ≤ b) (h : memWfFrom b m = true) :
    memWfFrom c m = true := by
  cases m with
  | nil => rfl
  | cons head rest =>
    simp only [memWfFrom, Bool.and_eq_true, decide_eq_true_eq] at h ⊢
    exact ⟨⟨by omega, h.1.2⟩, h.2⟩

/-- Below its first address a canonical memory reads as unlisted. -/
theorem memGet_of_lt {m : List Host.Cell} : ∀ {b addr : Nat}, memWfFrom b m = true → addr < b →
    memGet m addr = unlistedByte := by
  induction m with
  | nil => intros; rfl
  | cons head rest ih =>
    intro b addr h hlt
    simp only [memWfFrom, Bool.and_eq_true, decide_eq_true_eq] at h
    have hne : head.1 ≠ addr := by omega
    simp only [memGet, hne, if_false]
    exact ih h.2 (by omega)

/-- A write is what a later read of the same address gives. -/
theorem memGet_memSet_same {m : List Host.Cell} {addr : Nat} {v : Byte} : ∀ {b : Nat}, memWfFrom b m = true →
    memGet (memSet m addr v) addr = v := by
  induction m with
  | nil => intro _ _; by_cases hv : v = unlistedByte <;> simp [memSet, memGet, hv]
  | cons head rest ih =>
    obtain ⟨k, c⟩ := head
    intro b h
    simp only [memWfFrom, Bool.and_eq_true, decide_eq_true_eq] at h
    by_cases hlt : addr < k
    · by_cases hv : v = unlistedByte
      · simp [memSet, hlt, hv, memGet, Nat.ne_of_gt hlt, memGet_of_lt h.2 (Nat.lt_succ_of_lt hlt)]
      · simp [memSet, hlt, hv, memGet]
    · by_cases heq : addr = k
      · subst heq
        by_cases hv : v = unlistedByte
        · simp [memSet, hv, memGet_of_lt h.2 (Nat.lt_succ_self addr)]
        · simp [memSet, hv, memGet]
      · simp [memSet, hlt, heq, memGet, Ne.symm heq, ih h.2]

/-- A write leaves every other address alone. -/
theorem memGet_memSet_other {m : List Host.Cell} {addr other : Nat} {v : Byte} (hne : other ≠ addr) :
    memGet (memSet m addr v) other = memGet m other := by
  induction m with
  | nil => by_cases hv : v = unlistedByte <;> simp [memSet, memGet, hv, hne.symm]
  | cons head rest ih =>
    obtain ⟨k, c⟩ := head
    by_cases hlt : addr < k
    · by_cases hv : v = unlistedByte <;> simp [memSet, hlt, hv, memGet, hne.symm]
    · by_cases heq : addr = k
      · subst heq
        by_cases hv : v = unlistedByte <;> simp [memSet, hv, memGet, hne.symm]
      · simp [memSet, hlt, heq, memGet, ih]

theorem memSet_wfFrom {m : List Host.Cell} {addr : Nat} {v : Byte} : ∀ {b : Nat}, b ≤ addr →
    memWfFrom b m = true → memWfFrom b (memSet m addr v) = true := by
  induction m with
  | nil => intro b hb _; by_cases hv : v = unlistedByte <;> simp [memSet, memWfFrom, hv, hb]
  | cons head rest ih =>
    obtain ⟨k, c⟩ := head
    intro b hb h
    have h' := h
    simp only [memWfFrom, Bool.and_eq_true, decide_eq_true_eq] at h
    by_cases hlt : addr < k
    · by_cases hv : v = unlistedByte
      · simpa [memSet, hlt, hv] using h'
      · have : addr + 1 ≤ k := hlt
        simp [memSet, hlt, hv, memWfFrom, hb, this, h.1.2, h.2]
    · by_cases heq : addr = k
      · subst heq
        by_cases hv : v = unlistedByte
        · simpa [memSet, hv] using memWfFrom_mono (Nat.le_succ_of_le hb) h.2
        · simp [memSet, hv, memWfFrom, hb, h.2]
      · have hk : k + 1 ≤ addr := by omega
        simp only [memSet, hlt, heq, if_false, memWfFrom, Bool.and_eq_true, decide_eq_true_eq]
        exact ⟨h.1, ih hk h.2⟩

/-- A write keeps the canonical form. -/
theorem memSet_wf {m : List Host.Cell} (addr : Nat) (v : Byte) (h : memWf m = true) : memWf (memSet m addr v) = true :=
  memSet_wfFrom (Nat.zero_le addr) h

theorem memWf_nil : memWf [] = true := rfl

/-- A memory made of any cells is canonical. -/
theorem memOfCells_wf (cells : List Host.Cell) : memWf (memOfCells cells) = true := by
  have key : ∀ (l m : List Host.Cell), memWf m = true →
      memWf (l.foldl (fun m c => memSet m c.1 c.2) m) = true := by
    intro l
    induction l with
    | nil => intro m h; exact h
    | cons c rest ih => intro m h; exact ih _ (memSet_wf c.1 c.2 h)
  exact key cells [] memWf_nil

end Machine

end Sys2Proof
end

