-- ==== Sys2Proof/Laws/State.lean ====
section
/-! SUPPORT. What each update of the state leaves in each field. -/

namespace Sys2Proof.Machine

/-! ### `setD` -/

@[simp] theorem State.setD_a (s : State) (v : Word) : (s.setD v).a = v.high := rfl
@[simp] theorem State.setD_b (s : State) (v : Word) : (s.setD v).b = v.low := rfl
@[simp] theorem State.setD_x (s : State) (v : Word) : (s.setD v).x = s.x := rfl
@[simp] theorem State.setD_y (s : State) (v : Word) : (s.setD v).y = s.y := rfl
@[simp] theorem State.setD_sp (s : State) (v : Word) : (s.setD v).sp = s.sp := rfl
@[simp] theorem State.setD_pc (s : State) (v : Word) : (s.setD v).pc = s.pc := rfl
@[simp] theorem State.setD_ccr (s : State) (v : Word) : (s.setD v).ccr = s.ccr := rfl
@[simp] theorem State.setD_ccrh (s : State) (v : Word) : (s.setD v).ccrh = s.ccrh := rfl
@[simp] theorem State.setD_ppage (s : State) (v : Word) : (s.setD v).ppage = s.ppage := rfl
@[simp] theorem State.setD_gpage (s : State) (v : Word) : (s.setD v).gpage = s.gpage := rfl
@[simp] theorem State.setD_tmp1 (s : State) (v : Word) : (s.setD v).tmp1 = s.tmp1 := rfl
@[simp] theorem State.setD_tmp2 (s : State) (v : Word) : (s.setD v).tmp2 = s.tmp2 := rfl
@[simp] theorem State.setD_tmp3 (s : State) (v : Word) : (s.setD v).tmp3 = s.tmp3 := rfl
@[simp] theorem State.setD_mem (s : State) (v : Word) : (s.setD v).mem = s.mem := rfl
@[simp] theorem State.setD_gmem (s : State) (v : Word) : (s.setD v).gmem = s.gmem := rfl
@[simp] theorem State.setD_runState (s : State) (v : Word) : (s.setD v).runState = s.runState := rfl
@[simp] theorem State.setD_pending (s : State) (v : Word) : (s.setD v).pending = s.pending := rfl
@[simp] theorem State.setD_queue (s : State) (v : Word) : (s.setD v).queue = s.queue := rfl
@[simp] theorem State.setD_refilled (s : State) (v : Word) : (s.setD v).refilled = s.refilled := rfl
@[simp] theorem State.setD_devices (s : State) (v : Word) : (s.setD v).devices = s.devices := rfl
@[simp] theorem State.setD_arrival (s : State) (v : Word) : (s.setD v).arrival = s.arrival := rfl
@[simp] theorem State.setD_wavFrames (s : State) (v : Word) : (s.setD v).wavFrames = s.wavFrames := rfl
@[simp] theorem State.setD_fresh (s : State) (v : Word) : (s.setD v).fresh = s.fresh := rfl
@[simp] theorem State.setD_params (s : State) (v : Word) : (s.setD v).params = s.params := rfl

/-! ### `setCcr` -/

@[simp] theorem State.setCcr_a (s : State) (k : Byte) : (s.setCcr k).a = s.a := rfl
@[simp] theorem State.setCcr_b (s : State) (k : Byte) : (s.setCcr k).b = s.b := rfl
@[simp] theorem State.setCcr_x (s : State) (k : Byte) : (s.setCcr k).x = s.x := rfl
@[simp] theorem State.setCcr_y (s : State) (k : Byte) : (s.setCcr k).y = s.y := rfl
@[simp] theorem State.setCcr_sp (s : State) (k : Byte) : (s.setCcr k).sp = s.sp := rfl
@[simp] theorem State.setCcr_pc (s : State) (k : Byte) : (s.setCcr k).pc = s.pc := rfl
@[simp] theorem State.setCcr_ccr (s : State) (k : Byte) : (s.setCcr k).ccr = k := rfl
@[simp] theorem State.setCcr_ccrh (s : State) (k : Byte) : (s.setCcr k).ccrh = s.ccrh := rfl
@[simp] theorem State.setCcr_ppage (s : State) (k : Byte) : (s.setCcr k).ppage = s.ppage := rfl
@[simp] theorem State.setCcr_gpage (s : State) (k : Byte) : (s.setCcr k).gpage = s.gpage := rfl
@[simp] theorem State.setCcr_tmp1 (s : State) (k : Byte) : (s.setCcr k).tmp1 = s.tmp1 := rfl
@[simp] theorem State.setCcr_tmp2 (s : State) (k : Byte) : (s.setCcr k).tmp2 = s.tmp2 := rfl
@[simp] theorem State.setCcr_tmp3 (s : State) (k : Byte) : (s.setCcr k).tmp3 = s.tmp3 := rfl
@[simp] theorem State.setCcr_mem (s : State) (k : Byte) : (s.setCcr k).mem = s.mem := rfl
@[simp] theorem State.setCcr_gmem (s : State) (k : Byte) : (s.setCcr k).gmem = s.gmem := rfl
@[simp] theorem State.setCcr_runState (s : State) (k : Byte) : (s.setCcr k).runState = s.runState := rfl
@[simp] theorem State.setCcr_pending (s : State) (k : Byte) : (s.setCcr k).pending = s.pending := rfl
@[simp] theorem State.setCcr_queue (s : State) (k : Byte) : (s.setCcr k).queue = s.queue := rfl
@[simp] theorem State.setCcr_refilled (s : State) (k : Byte) : (s.setCcr k).refilled = s.refilled := rfl
@[simp] theorem State.setCcr_devices (s : State) (k : Byte) : (s.setCcr k).devices = s.devices := rfl
@[simp] theorem State.setCcr_arrival (s : State) (k : Byte) : (s.setCcr k).arrival = s.arrival := rfl
@[simp] theorem State.setCcr_wavFrames (s : State) (k : Byte) : (s.setCcr k).wavFrames = s.wavFrames := rfl
@[simp] theorem State.setCcr_fresh (s : State) (k : Byte) : (s.setCcr k).fresh = s.fresh := rfl
@[simp] theorem State.setCcr_params (s : State) (k : Byte) : (s.setCcr k).params = s.params := rfl

/-! ### `writeCcr` -/

@[simp] theorem State.writeCcr_a (s : State) (v : Byte) : (s.writeCcr v).a = s.a := rfl
@[simp] theorem State.writeCcr_b (s : State) (v : Byte) : (s.writeCcr v).b = s.b := rfl
@[simp] theorem State.writeCcr_x (s : State) (v : Byte) : (s.writeCcr v).x = s.x := rfl
@[simp] theorem State.writeCcr_y (s : State) (v : Byte) : (s.writeCcr v).y = s.y := rfl
@[simp] theorem State.writeCcr_sp (s : State) (v : Byte) : (s.writeCcr v).sp = s.sp := rfl
@[simp] theorem State.writeCcr_pc (s : State) (v : Byte) : (s.writeCcr v).pc = s.pc := rfl
@[simp] theorem State.writeCcr_ccr (s : State) (v : Byte) : (s.writeCcr v).ccr = writtenCcr s.ccr v := rfl
@[simp] theorem State.writeCcr_ccrh (s : State) (v : Byte) : (s.writeCcr v).ccrh = s.ccrh := rfl
@[simp] theorem State.writeCcr_ppage (s : State) (v : Byte) : (s.writeCcr v).ppage = s.ppage := rfl
@[simp] theorem State.writeCcr_gpage (s : State) (v : Byte) : (s.writeCcr v).gpage = s.gpage := rfl
@[simp] theorem State.writeCcr_tmp1 (s : State) (v : Byte) : (s.writeCcr v).tmp1 = s.tmp1 := rfl
@[simp] theorem State.writeCcr_tmp2 (s : State) (v : Byte) : (s.writeCcr v).tmp2 = s.tmp2 := rfl
@[simp] theorem State.writeCcr_tmp3 (s : State) (v : Byte) : (s.writeCcr v).tmp3 = s.tmp3 := rfl
@[simp] theorem State.writeCcr_mem (s : State) (v : Byte) : (s.writeCcr v).mem = s.mem := rfl
@[simp] theorem State.writeCcr_gmem (s : State) (v : Byte) : (s.writeCcr v).gmem = s.gmem := rfl
@[simp] theorem State.writeCcr_runState (s : State) (v : Byte) : (s.writeCcr v).runState = s.runState := rfl
@[simp] theorem State.writeCcr_pending (s : State) (v : Byte) : (s.writeCcr v).pending = s.pending := rfl
@[simp] theorem State.writeCcr_queue (s : State) (v : Byte) : (s.writeCcr v).queue = s.queue := rfl
@[simp] theorem State.writeCcr_refilled (s : State) (v : Byte) : (s.writeCcr v).refilled = s.refilled := rfl
@[simp] theorem State.writeCcr_devices (s : State) (v : Byte) : (s.writeCcr v).devices = s.devices := rfl
@[simp] theorem State.writeCcr_arrival (s : State) (v : Byte) : (s.writeCcr v).arrival = s.arrival := rfl
@[simp] theorem State.writeCcr_wavFrames (s : State) (v : Byte) : (s.writeCcr v).wavFrames = s.wavFrames := rfl
@[simp] theorem State.writeCcr_fresh (s : State) (v : Byte) : (s.writeCcr v).fresh = s.fresh := rfl
@[simp] theorem State.writeCcr_params (s : State) (v : Byte) : (s.writeCcr v).params = s.params := rfl

/-! ### `writeCcrh` -/

@[simp] theorem State.writeCcrh_a (s : State) (v : Byte) : (s.writeCcrh v).a = s.a := rfl
@[simp] theorem State.writeCcrh_b (s : State) (v : Byte) : (s.writeCcrh v).b = s.b := rfl
@[simp] theorem State.writeCcrh_x (s : State) (v : Byte) : (s.writeCcrh v).x = s.x := rfl
@[simp] theorem State.writeCcrh_y (s : State) (v : Byte) : (s.writeCcrh v).y = s.y := rfl
@[simp] theorem State.writeCcrh_sp (s : State) (v : Byte) : (s.writeCcrh v).sp = s.sp := rfl
@[simp] theorem State.writeCcrh_pc (s : State) (v : Byte) : (s.writeCcrh v).pc = s.pc := rfl
@[simp] theorem State.writeCcrh_ccr (s : State) (v : Byte) : (s.writeCcrh v).ccr = s.ccr := rfl
@[simp] theorem State.writeCcrh_ccrh (s : State) (v : Byte) : (s.writeCcrh v).ccrh = writtenCcrh s.params.ccrhWmask s.ccrh v := rfl
@[simp] theorem State.writeCcrh_ppage (s : State) (v : Byte) : (s.writeCcrh v).ppage = s.ppage := rfl
@[simp] theorem State.writeCcrh_gpage (s : State) (v : Byte) : (s.writeCcrh v).gpage = s.gpage := rfl
@[simp] theorem State.writeCcrh_tmp1 (s : State) (v : Byte) : (s.writeCcrh v).tmp1 = s.tmp1 := rfl
@[simp] theorem State.writeCcrh_tmp2 (s : State) (v : Byte) : (s.writeCcrh v).tmp2 = s.tmp2 := rfl
@[simp] theorem State.writeCcrh_tmp3 (s : State) (v : Byte) : (s.writeCcrh v).tmp3 = s.tmp3 := rfl
@[simp] theorem State.writeCcrh_mem (s : State) (v : Byte) : (s.writeCcrh v).mem = s.mem := rfl
@[simp] theorem State.writeCcrh_gmem (s : State) (v : Byte) : (s.writeCcrh v).gmem = s.gmem := rfl
@[simp] theorem State.writeCcrh_runState (s : State) (v : Byte) : (s.writeCcrh v).runState = s.runState := rfl
@[simp] theorem State.writeCcrh_pending (s : State) (v : Byte) : (s.writeCcrh v).pending = s.pending := rfl
@[simp] theorem State.writeCcrh_queue (s : State) (v : Byte) : (s.writeCcrh v).queue = s.queue := rfl
@[simp] theorem State.writeCcrh_refilled (s : State) (v : Byte) : (s.writeCcrh v).refilled = s.refilled := rfl
@[simp] theorem State.writeCcrh_devices (s : State) (v : Byte) : (s.writeCcrh v).devices = s.devices := rfl
@[simp] theorem State.writeCcrh_arrival (s : State) (v : Byte) : (s.writeCcrh v).arrival = s.arrival := rfl
@[simp] theorem State.writeCcrh_wavFrames (s : State) (v : Byte) : (s.writeCcrh v).wavFrames = s.wavFrames := rfl
@[simp] theorem State.writeCcrh_fresh (s : State) (v : Byte) : (s.writeCcrh v).fresh = s.fresh := rfl
@[simp] theorem State.writeCcrh_params (s : State) (v : Byte) : (s.writeCcrh v).params = s.params := rfl

/-! ### `writeCcrw` -/

@[simp] theorem State.writeCcrw_a (s : State) (v : Word) : (s.writeCcrw v).a = s.a := rfl
@[simp] theorem State.writeCcrw_b (s : State) (v : Word) : (s.writeCcrw v).b = s.b := rfl
@[simp] theorem State.writeCcrw_x (s : State) (v : Word) : (s.writeCcrw v).x = s.x := rfl
@[simp] theorem State.writeCcrw_y (s : State) (v : Word) : (s.writeCcrw v).y = s.y := rfl
@[simp] theorem State.writeCcrw_sp (s : State) (v : Word) : (s.writeCcrw v).sp = s.sp := rfl
@[simp] theorem State.writeCcrw_pc (s : State) (v : Word) : (s.writeCcrw v).pc = s.pc := rfl
@[simp] theorem State.writeCcrw_ccr (s : State) (v : Word) : (s.writeCcrw v).ccr = writtenCcr s.ccr v.low := rfl
@[simp] theorem State.writeCcrw_ccrh (s : State) (v : Word) : (s.writeCcrw v).ccrh = writtenCcrh s.params.ccrhWmask s.ccrh v.high := rfl
@[simp] theorem State.writeCcrw_ppage (s : State) (v : Word) : (s.writeCcrw v).ppage = s.ppage := rfl
@[simp] theorem State.writeCcrw_gpage (s : State) (v : Word) : (s.writeCcrw v).gpage = s.gpage := rfl
@[simp] theorem State.writeCcrw_tmp1 (s : State) (v : Word) : (s.writeCcrw v).tmp1 = s.tmp1 := rfl
@[simp] theorem State.writeCcrw_tmp2 (s : State) (v : Word) : (s.writeCcrw v).tmp2 = s.tmp2 := rfl
@[simp] theorem State.writeCcrw_tmp3 (s : State) (v : Word) : (s.writeCcrw v).tmp3 = s.tmp3 := rfl
@[simp] theorem State.writeCcrw_mem (s : State) (v : Word) : (s.writeCcrw v).mem = s.mem := rfl
@[simp] theorem State.writeCcrw_gmem (s : State) (v : Word) : (s.writeCcrw v).gmem = s.gmem := rfl
@[simp] theorem State.writeCcrw_runState (s : State) (v : Word) : (s.writeCcrw v).runState = s.runState := rfl
@[simp] theorem State.writeCcrw_pending (s : State) (v : Word) : (s.writeCcrw v).pending = s.pending := rfl
@[simp] theorem State.writeCcrw_queue (s : State) (v : Word) : (s.writeCcrw v).queue = s.queue := rfl
@[simp] theorem State.writeCcrw_refilled (s : State) (v : Word) : (s.writeCcrw v).refilled = s.refilled := rfl
@[simp] theorem State.writeCcrw_devices (s : State) (v : Word) : (s.writeCcrw v).devices = s.devices := rfl
@[simp] theorem State.writeCcrw_arrival (s : State) (v : Word) : (s.writeCcrw v).arrival = s.arrival := rfl
@[simp] theorem State.writeCcrw_wavFrames (s : State) (v : Word) : (s.writeCcrw v).wavFrames = s.wavFrames := rfl
@[simp] theorem State.writeCcrw_fresh (s : State) (v : Word) : (s.writeCcrw v).fresh = s.fresh := rfl
@[simp] theorem State.writeCcrw_params (s : State) (v : Word) : (s.writeCcrw v).params = s.params := rfl

/-! ### `popped` -/

@[simp] theorem State.popped_a (s : State) (n : Word) : (s.popped n).a = s.a := rfl
@[simp] theorem State.popped_b (s : State) (n : Word) : (s.popped n).b = s.b := rfl
@[simp] theorem State.popped_x (s : State) (n : Word) : (s.popped n).x = s.x := rfl
@[simp] theorem State.popped_y (s : State) (n : Word) : (s.popped n).y = s.y := rfl
@[simp] theorem State.popped_sp (s : State) (n : Word) : (s.popped n).sp = s.sp + n := rfl
@[simp] theorem State.popped_pc (s : State) (n : Word) : (s.popped n).pc = s.pc := rfl
@[simp] theorem State.popped_ccr (s : State) (n : Word) : (s.popped n).ccr = s.ccr := rfl
@[simp] theorem State.popped_ccrh (s : State) (n : Word) : (s.popped n).ccrh = s.ccrh := rfl
@[simp] theorem State.popped_ppage (s : State) (n : Word) : (s.popped n).ppage = s.ppage := rfl
@[simp] theorem State.popped_gpage (s : State) (n : Word) : (s.popped n).gpage = s.gpage := rfl
@[simp] theorem State.popped_tmp1 (s : State) (n : Word) : (s.popped n).tmp1 = s.tmp1 := rfl
@[simp] theorem State.popped_tmp2 (s : State) (n : Word) : (s.popped n).tmp2 = s.tmp2 := rfl
@[simp] theorem State.popped_tmp3 (s : State) (n : Word) : (s.popped n).tmp3 = s.tmp3 := rfl
@[simp] theorem State.popped_mem (s : State) (n : Word) : (s.popped n).mem = s.mem := rfl
@[simp] theorem State.popped_gmem (s : State) (n : Word) : (s.popped n).gmem = s.gmem := rfl
@[simp] theorem State.popped_runState (s : State) (n : Word) : (s.popped n).runState = s.runState := rfl
@[simp] theorem State.popped_pending (s : State) (n : Word) : (s.popped n).pending = s.pending := rfl
@[simp] theorem State.popped_queue (s : State) (n : Word) : (s.popped n).queue = s.queue := rfl
@[simp] theorem State.popped_refilled (s : State) (n : Word) : (s.popped n).refilled = s.refilled := rfl
@[simp] theorem State.popped_devices (s : State) (n : Word) : (s.popped n).devices = s.devices := rfl
@[simp] theorem State.popped_arrival (s : State) (n : Word) : (s.popped n).arrival = s.arrival := rfl
@[simp] theorem State.popped_wavFrames (s : State) (n : Word) : (s.popped n).wavFrames = s.wavFrames := rfl
@[simp] theorem State.popped_fresh (s : State) (n : Word) : (s.popped n).fresh = s.fresh := rfl
@[simp] theorem State.popped_params (s : State) (n : Word) : (s.popped n).params = s.params := rfl

/-! ### `jump` -/

@[simp] theorem State.jump_a (s : State) (target : Word) : (s.jump target).a = s.a := rfl
@[simp] theorem State.jump_b (s : State) (target : Word) : (s.jump target).b = s.b := rfl
@[simp] theorem State.jump_x (s : State) (target : Word) : (s.jump target).x = s.x := rfl
@[simp] theorem State.jump_y (s : State) (target : Word) : (s.jump target).y = s.y := rfl
@[simp] theorem State.jump_sp (s : State) (target : Word) : (s.jump target).sp = s.sp := rfl
@[simp] theorem State.jump_pc (s : State) (target : Word) : (s.jump target).pc = target := rfl
@[simp] theorem State.jump_ccr (s : State) (target : Word) : (s.jump target).ccr = s.ccr := rfl
@[simp] theorem State.jump_ccrh (s : State) (target : Word) : (s.jump target).ccrh = s.ccrh := rfl
@[simp] theorem State.jump_ppage (s : State) (target : Word) : (s.jump target).ppage = s.ppage := rfl
@[simp] theorem State.jump_gpage (s : State) (target : Word) : (s.jump target).gpage = s.gpage := rfl
@[simp] theorem State.jump_tmp1 (s : State) (target : Word) : (s.jump target).tmp1 = s.tmp1 := rfl
@[simp] theorem State.jump_tmp2 (s : State) (target : Word) : (s.jump target).tmp2 = s.tmp2 := rfl
@[simp] theorem State.jump_tmp3 (s : State) (target : Word) : (s.jump target).tmp3 = s.tmp3 := rfl
@[simp] theorem State.jump_mem (s : State) (target : Word) : (s.jump target).mem = s.mem := rfl
@[simp] theorem State.jump_gmem (s : State) (target : Word) : (s.jump target).gmem = s.gmem := rfl
@[simp] theorem State.jump_runState (s : State) (target : Word) : (s.jump target).runState = s.runState := rfl
@[simp] theorem State.jump_pending (s : State) (target : Word) : (s.jump target).pending = s.pending := rfl
@[simp] theorem State.jump_queue (s : State) (target : Word) : (s.jump target).queue = s.queue := rfl
@[simp] theorem State.jump_refilled (s : State) (target : Word) : (s.jump target).refilled = true := rfl
@[simp] theorem State.jump_devices (s : State) (target : Word) : (s.jump target).devices = s.devices := rfl
@[simp] theorem State.jump_arrival (s : State) (target : Word) : (s.jump target).arrival = s.arrival := rfl
@[simp] theorem State.jump_wavFrames (s : State) (target : Word) : (s.jump target).wavFrames = s.wavFrames := rfl
@[simp] theorem State.jump_fresh (s : State) (target : Word) : (s.jump target).fresh = s.fresh := rfl
@[simp] theorem State.jump_params (s : State) (target : Word) : (s.jump target).params = s.params := rfl

/-! ### `tick` -/

@[simp] theorem State.tick_a (s : State)  : (s.tick).a = s.a := rfl
@[simp] theorem State.tick_b (s : State)  : (s.tick).b = s.b := rfl
@[simp] theorem State.tick_x (s : State)  : (s.tick).x = s.x := rfl
@[simp] theorem State.tick_y (s : State)  : (s.tick).y = s.y := rfl
@[simp] theorem State.tick_sp (s : State)  : (s.tick).sp = s.sp := rfl
@[simp] theorem State.tick_pc (s : State)  : (s.tick).pc = s.pc := rfl
@[simp] theorem State.tick_ccr (s : State)  : (s.tick).ccr = s.ccr := rfl
@[simp] theorem State.tick_ccrh (s : State)  : (s.tick).ccrh = s.ccrh := rfl
@[simp] theorem State.tick_ppage (s : State)  : (s.tick).ppage = s.ppage := rfl
@[simp] theorem State.tick_gpage (s : State)  : (s.tick).gpage = s.gpage := rfl
@[simp] theorem State.tick_tmp1 (s : State)  : (s.tick).tmp1 = s.tmp1 := rfl
@[simp] theorem State.tick_tmp2 (s : State)  : (s.tick).tmp2 = s.tmp2 := rfl
@[simp] theorem State.tick_tmp3 (s : State)  : (s.tick).tmp3 = s.tmp3 := rfl
@[simp] theorem State.tick_mem (s : State)  : (s.tick).mem = s.mem := rfl
@[simp] theorem State.tick_gmem (s : State)  : (s.tick).gmem = s.gmem := rfl
@[simp] theorem State.tick_runState (s : State)  : (s.tick).runState = s.runState := rfl
@[simp] theorem State.tick_pending (s : State)  : (s.tick).pending = s.pending := rfl
@[simp] theorem State.tick_queue (s : State)  : (s.tick).queue = s.queue := rfl
@[simp] theorem State.tick_refilled (s : State)  : (s.tick).refilled = s.refilled := rfl
@[simp] theorem State.tick_devices (s : State)  : (s.tick).devices = s.devices := rfl
@[simp] theorem State.tick_arrival (s : State)  : (s.tick).arrival = s.arrival := rfl
@[simp] theorem State.tick_wavFrames (s : State)  : (s.tick).wavFrames = s.wavFrames := rfl
@[simp] theorem State.tick_fresh (s : State)  : (s.tick).fresh = s.fresh + 1 := rfl
@[simp] theorem State.tick_params (s : State)  : (s.tick).params = s.params := rfl

/-! ### `havocTemporaries` -/

@[simp] theorem State.havocTemporaries_a (s : State)  : (s.havocTemporaries).a = s.a := rfl
@[simp] theorem State.havocTemporaries_b (s : State)  : (s.havocTemporaries).b = s.b := rfl
@[simp] theorem State.havocTemporaries_x (s : State)  : (s.havocTemporaries).x = s.x := rfl
@[simp] theorem State.havocTemporaries_y (s : State)  : (s.havocTemporaries).y = s.y := rfl
@[simp] theorem State.havocTemporaries_sp (s : State)  : (s.havocTemporaries).sp = s.sp := rfl
@[simp] theorem State.havocTemporaries_pc (s : State)  : (s.havocTemporaries).pc = s.pc := rfl
@[simp] theorem State.havocTemporaries_ccr (s : State)  : (s.havocTemporaries).ccr = s.ccr := rfl
@[simp] theorem State.havocTemporaries_ccrh (s : State)  : (s.havocTemporaries).ccrh = s.ccrh := rfl
@[simp] theorem State.havocTemporaries_ppage (s : State)  : (s.havocTemporaries).ppage = s.ppage := rfl
@[simp] theorem State.havocTemporaries_gpage (s : State)  : (s.havocTemporaries).gpage = s.gpage := rfl
@[simp] theorem State.havocTemporaries_tmp1 (s : State)  : (s.havocTemporaries).tmp1 = Config.freeTmp1 s.fresh := rfl
@[simp] theorem State.havocTemporaries_tmp2 (s : State)  : (s.havocTemporaries).tmp2 = Config.freeTmp2 s.fresh := rfl
@[simp] theorem State.havocTemporaries_tmp3 (s : State)  : (s.havocTemporaries).tmp3 = Config.freeTmp3 s.fresh := rfl
@[simp] theorem State.havocTemporaries_mem (s : State)  : (s.havocTemporaries).mem = s.mem := rfl
@[simp] theorem State.havocTemporaries_gmem (s : State)  : (s.havocTemporaries).gmem = s.gmem := rfl
@[simp] theorem State.havocTemporaries_runState (s : State)  : (s.havocTemporaries).runState = s.runState := rfl
@[simp] theorem State.havocTemporaries_pending (s : State)  : (s.havocTemporaries).pending = s.pending := rfl
@[simp] theorem State.havocTemporaries_queue (s : State)  : (s.havocTemporaries).queue = s.queue := rfl
@[simp] theorem State.havocTemporaries_refilled (s : State)  : (s.havocTemporaries).refilled = s.refilled := rfl
@[simp] theorem State.havocTemporaries_devices (s : State)  : (s.havocTemporaries).devices = s.devices := rfl
@[simp] theorem State.havocTemporaries_arrival (s : State)  : (s.havocTemporaries).arrival = s.arrival := rfl
@[simp] theorem State.havocTemporaries_wavFrames (s : State)  : (s.havocTemporaries).wavFrames = s.wavFrames := rfl
@[simp] theorem State.havocTemporaries_fresh (s : State)  : (s.havocTemporaries).fresh = s.fresh := rfl
@[simp] theorem State.havocTemporaries_params (s : State)  : (s.havocTemporaries).params = s.params := rfl

/-! ### `vectored` -/

@[simp] theorem State.vectored_a (s : State) (target : Word) (isXirq : Bool) : (s.vectored target isXirq).a = s.a := rfl
@[simp] theorem State.vectored_b (s : State) (target : Word) (isXirq : Bool) : (s.vectored target isXirq).b = s.b := rfl
@[simp] theorem State.vectored_x (s : State) (target : Word) (isXirq : Bool) : (s.vectored target isXirq).x = s.x := rfl
@[simp] theorem State.vectored_y (s : State) (target : Word) (isXirq : Bool) : (s.vectored target isXirq).y = s.y := rfl
@[simp] theorem State.vectored_sp (s : State) (target : Word) (isXirq : Bool) : (s.vectored target isXirq).sp = s.sp := rfl
@[simp] theorem State.vectored_pc (s : State) (target : Word) (isXirq : Bool) : (s.vectored target isXirq).pc = target := rfl
@[simp] theorem State.vectored_ccr (s : State) (target : Word) (isXirq : Bool) : (s.vectored target isXirq).ccr = maskedCcr s.ccr isXirq := rfl
@[simp] theorem State.vectored_ccrh (s : State) (target : Word) (isXirq : Bool) : (s.vectored target isXirq).ccrh = s.ccrh := rfl
@[simp] theorem State.vectored_ppage (s : State) (target : Word) (isXirq : Bool) : (s.vectored target isXirq).ppage = s.ppage := rfl
@[simp] theorem State.vectored_gpage (s : State) (target : Word) (isXirq : Bool) : (s.vectored target isXirq).gpage = s.gpage := rfl
@[simp] theorem State.vectored_tmp1 (s : State) (target : Word) (isXirq : Bool) : (s.vectored target isXirq).tmp1 = s.tmp1 := rfl
@[simp] theorem State.vectored_tmp2 (s : State) (target : Word) (isXirq : Bool) : (s.vectored target isXirq).tmp2 = s.tmp2 := rfl
@[simp] theorem State.vectored_tmp3 (s : State) (target : Word) (isXirq : Bool) : (s.vectored target isXirq).tmp3 = s.tmp3 := rfl
@[simp] theorem State.vectored_mem (s : State) (target : Word) (isXirq : Bool) : (s.vectored target isXirq).mem = s.mem := rfl
@[simp] theorem State.vectored_gmem (s : State) (target : Word) (isXirq : Bool) : (s.vectored target isXirq).gmem = s.gmem := rfl
@[simp] theorem State.vectored_runState (s : State) (target : Word) (isXirq : Bool) : (s.vectored target isXirq).runState = .running := rfl
@[simp] theorem State.vectored_pending (s : State) (target : Word) (isXirq : Bool) : (s.vectored target isXirq).pending = s.pending := rfl
@[simp] theorem State.vectored_queue (s : State) (target : Word) (isXirq : Bool) : (s.vectored target isXirq).queue = s.queue := rfl
@[simp] theorem State.vectored_refilled (s : State) (target : Word) (isXirq : Bool) : (s.vectored target isXirq).refilled = true := rfl
@[simp] theorem State.vectored_devices (s : State) (target : Word) (isXirq : Bool) : (s.vectored target isXirq).devices = s.devices := rfl
@[simp] theorem State.vectored_arrival (s : State) (target : Word) (isXirq : Bool) : (s.vectored target isXirq).arrival = s.arrival := rfl
@[simp] theorem State.vectored_wavFrames (s : State) (target : Word) (isXirq : Bool) : (s.vectored target isXirq).wavFrames = s.wavFrames := rfl
@[simp] theorem State.vectored_fresh (s : State) (target : Word) (isXirq : Bool) : (s.vectored target isXirq).fresh = s.fresh := rfl
@[simp] theorem State.vectored_params (s : State) (target : Word) (isXirq : Bool) : (s.vectored target isXirq).params = s.params := rfl

/-! ### `set8` -/

@[simp] theorem State.set8_x (s : State) (r : Reg8) (v : Byte) : (s.set8 r v).x = s.x := by cases r <;> rfl
@[simp] theorem State.set8_y (s : State) (r : Reg8) (v : Byte) : (s.set8 r v).y = s.y := by cases r <;> rfl
@[simp] theorem State.set8_sp (s : State) (r : Reg8) (v : Byte) : (s.set8 r v).sp = s.sp := by cases r <;> rfl
@[simp] theorem State.set8_pc (s : State) (r : Reg8) (v : Byte) : (s.set8 r v).pc = s.pc := by cases r <;> rfl
@[simp] theorem State.set8_ccr (s : State) (r : Reg8) (v : Byte) : (s.set8 r v).ccr = s.ccr := by cases r <;> rfl
@[simp] theorem State.set8_ccrh (s : State) (r : Reg8) (v : Byte) : (s.set8 r v).ccrh = s.ccrh := by cases r <;> rfl
@[simp] theorem State.set8_ppage (s : State) (r : Reg8) (v : Byte) : (s.set8 r v).ppage = s.ppage := by cases r <;> rfl
@[simp] theorem State.set8_gpage (s : State) (r : Reg8) (v : Byte) : (s.set8 r v).gpage = s.gpage := by cases r <;> rfl
@[simp] theorem State.set8_tmp1 (s : State) (r : Reg8) (v : Byte) : (s.set8 r v).tmp1 = s.tmp1 := by cases r <;> rfl
@[simp] theorem State.set8_tmp2 (s : State) (r : Reg8) (v : Byte) : (s.set8 r v).tmp2 = s.tmp2 := by cases r <;> rfl
@[simp] theorem State.set8_tmp3 (s : State) (r : Reg8) (v : Byte) : (s.set8 r v).tmp3 = s.tmp3 := by cases r <;> rfl
@[simp] theorem State.set8_mem (s : State) (r : Reg8) (v : Byte) : (s.set8 r v).mem = s.mem := by cases r <;> rfl
@[simp] theorem State.set8_gmem (s : State) (r : Reg8) (v : Byte) : (s.set8 r v).gmem = s.gmem := by cases r <;> rfl
@[simp] theorem State.set8_runState (s : State) (r : Reg8) (v : Byte) : (s.set8 r v).runState = s.runState := by cases r <;> rfl
@[simp] theorem State.set8_pending (s : State) (r : Reg8) (v : Byte) : (s.set8 r v).pending = s.pending := by cases r <;> rfl
@[simp] theorem State.set8_queue (s : State) (r : Reg8) (v : Byte) : (s.set8 r v).queue = s.queue := by cases r <;> rfl
@[simp] theorem State.set8_refilled (s : State) (r : Reg8) (v : Byte) : (s.set8 r v).refilled = s.refilled := by cases r <;> rfl
@[simp] theorem State.set8_devices (s : State) (r : Reg8) (v : Byte) : (s.set8 r v).devices = s.devices := by cases r <;> rfl
@[simp] theorem State.set8_arrival (s : State) (r : Reg8) (v : Byte) : (s.set8 r v).arrival = s.arrival := by cases r <;> rfl
@[simp] theorem State.set8_wavFrames (s : State) (r : Reg8) (v : Byte) : (s.set8 r v).wavFrames = s.wavFrames := by cases r <;> rfl
@[simp] theorem State.set8_fresh (s : State) (r : Reg8) (v : Byte) : (s.set8 r v).fresh = s.fresh := by cases r <;> rfl
@[simp] theorem State.set8_params (s : State) (r : Reg8) (v : Byte) : (s.set8 r v).params = s.params := by cases r <;> rfl
@[simp] theorem State.set8_a_a (s : State) (v : Byte) : (s.set8 .a v).a = v := rfl
@[simp] theorem State.set8_a_b (s : State) (v : Byte) : (s.set8 .a v).b = s.b := rfl
@[simp] theorem State.set8_b_a (s : State) (v : Byte) : (s.set8 .b v).a = s.a := rfl
@[simp] theorem State.set8_b_b (s : State) (v : Byte) : (s.set8 .b v).b = v := rfl
@[simp] theorem State.get8_set8 (s : State) (r : Reg8) (v : Byte) : (s.set8 r v).get8 r = v := by cases r <;> rfl

/-! ### `set16` -/

@[simp] theorem State.set16_pc (s : State) (r : Reg16) (v : Word) : (s.set16 r v).pc = s.pc := by cases r <;> rfl
@[simp] theorem State.set16_ccr (s : State) (r : Reg16) (v : Word) : (s.set16 r v).ccr = s.ccr := by cases r <;> rfl
@[simp] theorem State.set16_ccrh (s : State) (r : Reg16) (v : Word) : (s.set16 r v).ccrh = s.ccrh := by cases r <;> rfl
@[simp] theorem State.set16_ppage (s : State) (r : Reg16) (v : Word) : (s.set16 r v).ppage = s.ppage := by cases r <;> rfl
@[simp] theorem State.set16_gpage (s : State) (r : Reg16) (v : Word) : (s.set16 r v).gpage = s.gpage := by cases r <;> rfl
@[simp] theorem State.set16_tmp1 (s : State) (r : Reg16) (v : Word) : (s.set16 r v).tmp1 = s.tmp1 := by cases r <;> rfl
@[simp] theorem State.set16_tmp2 (s : State) (r : Reg16) (v : Word) : (s.set16 r v).tmp2 = s.tmp2 := by cases r <;> rfl
@[simp] theorem State.set16_tmp3 (s : State) (r : Reg16) (v : Word) : (s.set16 r v).tmp3 = s.tmp3 := by cases r <;> rfl
@[simp] theorem State.set16_mem (s : State) (r : Reg16) (v : Word) : (s.set16 r v).mem = s.mem := by cases r <;> rfl
@[simp] theorem State.set16_gmem (s : State) (r : Reg16) (v : Word) : (s.set16 r v).gmem = s.gmem := by cases r <;> rfl
@[simp] theorem State.set16_runState (s : State) (r : Reg16) (v : Word) : (s.set16 r v).runState = s.runState := by cases r <;> rfl
@[simp] theorem State.set16_pending (s : State) (r : Reg16) (v : Word) : (s.set16 r v).pending = s.pending := by cases r <;> rfl
@[simp] theorem State.set16_queue (s : State) (r : Reg16) (v : Word) : (s.set16 r v).queue = s.queue := by cases r <;> rfl
@[simp] theorem State.set16_refilled (s : State) (r : Reg16) (v : Word) : (s.set16 r v).refilled = s.refilled := by cases r <;> rfl
@[simp] theorem State.set16_devices (s : State) (r : Reg16) (v : Word) : (s.set16 r v).devices = s.devices := by cases r <;> rfl
@[simp] theorem State.set16_arrival (s : State) (r : Reg16) (v : Word) : (s.set16 r v).arrival = s.arrival := by cases r <;> rfl
@[simp] theorem State.set16_wavFrames (s : State) (r : Reg16) (v : Word) : (s.set16 r v).wavFrames = s.wavFrames := by cases r <;> rfl
@[simp] theorem State.set16_fresh (s : State) (r : Reg16) (v : Word) : (s.set16 r v).fresh = s.fresh := by cases r <;> rfl
@[simp] theorem State.set16_params (s : State) (r : Reg16) (v : Word) : (s.set16 r v).params = s.params := by cases r <;> rfl
@[simp] theorem State.set16_d_a (s : State) (v : Word) : (s.set16 .d v).a = v.high := rfl
@[simp] theorem State.set16_d_b (s : State) (v : Word) : (s.set16 .d v).b = v.low := rfl
@[simp] theorem State.set16_d_x (s : State) (v : Word) : (s.set16 .d v).x = s.x := rfl
@[simp] theorem State.set16_d_y (s : State) (v : Word) : (s.set16 .d v).y = s.y := rfl
@[simp] theorem State.set16_d_sp (s : State) (v : Word) : (s.set16 .d v).sp = s.sp := rfl
@[simp] theorem State.set16_x_a (s : State) (v : Word) : (s.set16 .x v).a = s.a := rfl
@[simp] theorem State.set16_x_b (s : State) (v : Word) : (s.set16 .x v).b = s.b := rfl
@[simp] theorem State.set16_x_x (s : State) (v : Word) : (s.set16 .x v).x = v := rfl
@[simp] theorem State.set16_x_y (s : State) (v : Word) : (s.set16 .x v).y = s.y := rfl
@[simp] theorem State.set16_x_sp (s : State) (v : Word) : (s.set16 .x v).sp = s.sp := rfl
@[simp] theorem State.set16_y_a (s : State) (v : Word) : (s.set16 .y v).a = s.a := rfl
@[simp] theorem State.set16_y_b (s : State) (v : Word) : (s.set16 .y v).b = s.b := rfl
@[simp] theorem State.set16_y_x (s : State) (v : Word) : (s.set16 .y v).x = s.x := rfl
@[simp] theorem State.set16_y_y (s : State) (v : Word) : (s.set16 .y v).y = v := rfl
@[simp] theorem State.set16_y_sp (s : State) (v : Word) : (s.set16 .y v).sp = s.sp := rfl
@[simp] theorem State.set16_sp_a (s : State) (v : Word) : (s.set16 .sp v).a = s.a := rfl
@[simp] theorem State.set16_sp_b (s : State) (v : Word) : (s.set16 .sp v).b = s.b := rfl
@[simp] theorem State.set16_sp_x (s : State) (v : Word) : (s.set16 .sp v).x = s.x := rfl
@[simp] theorem State.set16_sp_y (s : State) (v : Word) : (s.set16 .sp v).y = s.y := rfl
@[simp] theorem State.set16_sp_sp (s : State) (v : Word) : (s.set16 .sp v).sp = v := rfl

/-! ### `putPlace` -/

@[simp] theorem State.putPlace_a (s : State) (p : Place) (v : Byte) : (s.putPlace p v).a = s.a := by cases p <;> rfl
@[simp] theorem State.putPlace_b (s : State) (p : Place) (v : Byte) : (s.putPlace p v).b = s.b := by cases p <;> rfl
@[simp] theorem State.putPlace_x (s : State) (p : Place) (v : Byte) : (s.putPlace p v).x = s.x := by cases p <;> rfl
@[simp] theorem State.putPlace_y (s : State) (p : Place) (v : Byte) : (s.putPlace p v).y = s.y := by cases p <;> rfl
@[simp] theorem State.putPlace_sp (s : State) (p : Place) (v : Byte) : (s.putPlace p v).sp = s.sp := by cases p <;> rfl
@[simp] theorem State.putPlace_pc (s : State) (p : Place) (v : Byte) : (s.putPlace p v).pc = s.pc := by cases p <;> rfl
@[simp] theorem State.putPlace_ccr (s : State) (p : Place) (v : Byte) : (s.putPlace p v).ccr = s.ccr := by cases p <;> rfl
@[simp] theorem State.putPlace_ccrh (s : State) (p : Place) (v : Byte) : (s.putPlace p v).ccrh = s.ccrh := by cases p <;> rfl
@[simp] theorem State.putPlace_tmp1 (s : State) (p : Place) (v : Byte) : (s.putPlace p v).tmp1 = s.tmp1 := by cases p <;> rfl
@[simp] theorem State.putPlace_tmp2 (s : State) (p : Place) (v : Byte) : (s.putPlace p v).tmp2 = s.tmp2 := by cases p <;> rfl
@[simp] theorem State.putPlace_tmp3 (s : State) (p : Place) (v : Byte) : (s.putPlace p v).tmp3 = s.tmp3 := by cases p <;> rfl
@[simp] theorem State.putPlace_runState (s : State) (p : Place) (v : Byte) : (s.putPlace p v).runState = s.runState := by cases p <;> rfl
@[simp] theorem State.putPlace_pending (s : State) (p : Place) (v : Byte) : (s.putPlace p v).pending = s.pending := by cases p <;> rfl
@[simp] theorem State.putPlace_queue (s : State) (p : Place) (v : Byte) : (s.putPlace p v).queue = s.queue := by cases p <;> rfl
@[simp] theorem State.putPlace_refilled (s : State) (p : Place) (v : Byte) : (s.putPlace p v).refilled = s.refilled := by cases p <;> rfl
@[simp] theorem State.putPlace_arrival (s : State) (p : Place) (v : Byte) : (s.putPlace p v).arrival = s.arrival := by cases p <;> rfl
@[simp] theorem State.putPlace_wavFrames (s : State) (p : Place) (v : Byte) : (s.putPlace p v).wavFrames = s.wavFrames := by cases p <;> rfl
@[simp] theorem State.putPlace_fresh (s : State) (p : Place) (v : Byte) : (s.putPlace p v).fresh = s.fresh := by cases p <;> rfl
@[simp] theorem State.putPlace_params (s : State) (p : Place) (v : Byte) : (s.putPlace p v).params = s.params := by cases p <;> rfl

/-! ### `write8` -/

@[simp] theorem State.write8_a (s : State) (addr : Word) (v : Byte) : (s.write8 addr v).a = s.a := by simp [State.write8]
@[simp] theorem State.write8_b (s : State) (addr : Word) (v : Byte) : (s.write8 addr v).b = s.b := by simp [State.write8]
@[simp] theorem State.write8_x (s : State) (addr : Word) (v : Byte) : (s.write8 addr v).x = s.x := by simp [State.write8]
@[simp] theorem State.write8_y (s : State) (addr : Word) (v : Byte) : (s.write8 addr v).y = s.y := by simp [State.write8]
@[simp] theorem State.write8_sp (s : State) (addr : Word) (v : Byte) : (s.write8 addr v).sp = s.sp := by simp [State.write8]
@[simp] theorem State.write8_pc (s : State) (addr : Word) (v : Byte) : (s.write8 addr v).pc = s.pc := by simp [State.write8]
@[simp] theorem State.write8_ccr (s : State) (addr : Word) (v : Byte) : (s.write8 addr v).ccr = s.ccr := by simp [State.write8]
@[simp] theorem State.write8_ccrh (s : State) (addr : Word) (v : Byte) : (s.write8 addr v).ccrh = s.ccrh := by simp [State.write8]
@[simp] theorem State.write8_tmp1 (s : State) (addr : Word) (v : Byte) : (s.write8 addr v).tmp1 = s.tmp1 := by simp [State.write8]
@[simp] theorem State.write8_tmp2 (s : State) (addr : Word) (v : Byte) : (s.write8 addr v).tmp2 = s.tmp2 := by simp [State.write8]
@[simp] theorem State.write8_tmp3 (s : State) (addr : Word) (v : Byte) : (s.write8 addr v).tmp3 = s.tmp3 := by simp [State.write8]
@[simp] theorem State.write8_runState (s : State) (addr : Word) (v : Byte) : (s.write8 addr v).runState = s.runState := by simp [State.write8]
@[simp] theorem State.write8_pending (s : State) (addr : Word) (v : Byte) : (s.write8 addr v).pending = s.pending := by simp [State.write8]
@[simp] theorem State.write8_queue (s : State) (addr : Word) (v : Byte) : (s.write8 addr v).queue = s.queue := by simp [State.write8]
@[simp] theorem State.write8_refilled (s : State) (addr : Word) (v : Byte) : (s.write8 addr v).refilled = s.refilled := by simp [State.write8]
@[simp] theorem State.write8_arrival (s : State) (addr : Word) (v : Byte) : (s.write8 addr v).arrival = s.arrival := by simp [State.write8]
@[simp] theorem State.write8_wavFrames (s : State) (addr : Word) (v : Byte) : (s.write8 addr v).wavFrames = s.wavFrames := by simp [State.write8]
@[simp] theorem State.write8_fresh (s : State) (addr : Word) (v : Byte) : (s.write8 addr v).fresh = s.fresh := by simp [State.write8]
@[simp] theorem State.write8_params (s : State) (addr : Word) (v : Byte) : (s.write8 addr v).params = s.params := by simp [State.write8]

/-! ### `write16` -/

@[simp] theorem State.write16_a (s : State) (addr v : Word) : (s.write16 addr v).a = s.a := by simp [State.write16]
@[simp] theorem State.write16_b (s : State) (addr v : Word) : (s.write16 addr v).b = s.b := by simp [State.write16]
@[simp] theorem State.write16_x (s : State) (addr v : Word) : (s.write16 addr v).x = s.x := by simp [State.write16]
@[simp] theorem State.write16_y (s : State) (addr v : Word) : (s.write16 addr v).y = s.y := by simp [State.write16]
@[simp] theorem State.write16_sp (s : State) (addr v : Word) : (s.write16 addr v).sp = s.sp := by simp [State.write16]
@[simp] theorem State.write16_pc (s : State) (addr v : Word) : (s.write16 addr v).pc = s.pc := by simp [State.write16]
@[simp] theorem State.write16_ccr (s : State) (addr v : Word) : (s.write16 addr v).ccr = s.ccr := by simp [State.write16]
@[simp] theorem State.write16_ccrh (s : State) (addr v : Word) : (s.write16 addr v).ccrh = s.ccrh := by simp [State.write16]
@[simp] theorem State.write16_tmp1 (s : State) (addr v : Word) : (s.write16 addr v).tmp1 = s.tmp1 := by simp [State.write16]
@[simp] theorem State.write16_tmp2 (s : State) (addr v : Word) : (s.write16 addr v).tmp2 = s.tmp2 := by simp [State.write16]
@[simp] theorem State.write16_tmp3 (s : State) (addr v : Word) : (s.write16 addr v).tmp3 = s.tmp3 := by simp [State.write16]
@[simp] theorem State.write16_runState (s : State) (addr v : Word) : (s.write16 addr v).runState = s.runState := by simp [State.write16]
@[simp] theorem State.write16_pending (s : State) (addr v : Word) : (s.write16 addr v).pending = s.pending := by simp [State.write16]
@[simp] theorem State.write16_queue (s : State) (addr v : Word) : (s.write16 addr v).queue = s.queue := by simp [State.write16]
@[simp] theorem State.write16_refilled (s : State) (addr v : Word) : (s.write16 addr v).refilled = s.refilled := by simp [State.write16]
@[simp] theorem State.write16_arrival (s : State) (addr v : Word) : (s.write16 addr v).arrival = s.arrival := by simp [State.write16]
@[simp] theorem State.write16_wavFrames (s : State) (addr v : Word) : (s.write16 addr v).wavFrames = s.wavFrames := by simp [State.write16]
@[simp] theorem State.write16_fresh (s : State) (addr v : Word) : (s.write16 addr v).fresh = s.fresh := by simp [State.write16]
@[simp] theorem State.write16_params (s : State) (addr v : Word) : (s.write16 addr v).params = s.params := by simp [State.write16]

/-! ### `write32` -/

@[simp] theorem State.write32_a (s : State) (addr : Word) (v : BitVec 32) : (s.write32 addr v).a = s.a := by simp [State.write32]
@[simp] theorem State.write32_b (s : State) (addr : Word) (v : BitVec 32) : (s.write32 addr v).b = s.b := by simp [State.write32]
@[simp] theorem State.write32_x (s : State) (addr : Word) (v : BitVec 32) : (s.write32 addr v).x = s.x := by simp [State.write32]
@[simp] theorem State.write32_y (s : State) (addr : Word) (v : BitVec 32) : (s.write32 addr v).y = s.y := by simp [State.write32]
@[simp] theorem State.write32_sp (s : State) (addr : Word) (v : BitVec 32) : (s.write32 addr v).sp = s.sp := by simp [State.write32]
@[simp] theorem State.write32_pc (s : State) (addr : Word) (v : BitVec 32) : (s.write32 addr v).pc = s.pc := by simp [State.write32]
@[simp] theorem State.write32_ccr (s : State) (addr : Word) (v : BitVec 32) : (s.write32 addr v).ccr = s.ccr := by simp [State.write32]
@[simp] theorem State.write32_ccrh (s : State) (addr : Word) (v : BitVec 32) : (s.write32 addr v).ccrh = s.ccrh := by simp [State.write32]
@[simp] theorem State.write32_tmp1 (s : State) (addr : Word) (v : BitVec 32) : (s.write32 addr v).tmp1 = s.tmp1 := by simp [State.write32]
@[simp] theorem State.write32_tmp2 (s : State) (addr : Word) (v : BitVec 32) : (s.write32 addr v).tmp2 = s.tmp2 := by simp [State.write32]
@[simp] theorem State.write32_tmp3 (s : State) (addr : Word) (v : BitVec 32) : (s.write32 addr v).tmp3 = s.tmp3 := by simp [State.write32]
@[simp] theorem State.write32_runState (s : State) (addr : Word) (v : BitVec 32) : (s.write32 addr v).runState = s.runState := by simp [State.write32]
@[simp] theorem State.write32_pending (s : State) (addr : Word) (v : BitVec 32) : (s.write32 addr v).pending = s.pending := by simp [State.write32]
@[simp] theorem State.write32_queue (s : State) (addr : Word) (v : BitVec 32) : (s.write32 addr v).queue = s.queue := by simp [State.write32]
@[simp] theorem State.write32_refilled (s : State) (addr : Word) (v : BitVec 32) : (s.write32 addr v).refilled = s.refilled := by simp [State.write32]
@[simp] theorem State.write32_arrival (s : State) (addr : Word) (v : BitVec 32) : (s.write32 addr v).arrival = s.arrival := by simp [State.write32]
@[simp] theorem State.write32_wavFrames (s : State) (addr : Word) (v : BitVec 32) : (s.write32 addr v).wavFrames = s.wavFrames := by simp [State.write32]
@[simp] theorem State.write32_fresh (s : State) (addr : Word) (v : BitVec 32) : (s.write32 addr v).fresh = s.fresh := by simp [State.write32]
@[simp] theorem State.write32_params (s : State) (addr : Word) (v : BitVec 32) : (s.write32 addr v).params = s.params := by simp [State.write32]

/-! ### `globalWrite8` -/

@[simp] theorem State.globalWrite8_a (s : State) (ea : Word) (v : Byte) : (s.globalWrite8 ea v).a = s.a := by simp [State.globalWrite8]
@[simp] theorem State.globalWrite8_b (s : State) (ea : Word) (v : Byte) : (s.globalWrite8 ea v).b = s.b := by simp [State.globalWrite8]
@[simp] theorem State.globalWrite8_x (s : State) (ea : Word) (v : Byte) : (s.globalWrite8 ea v).x = s.x := by simp [State.globalWrite8]
@[simp] theorem State.globalWrite8_y (s : State) (ea : Word) (v : Byte) : (s.globalWrite8 ea v).y = s.y := by simp [State.globalWrite8]
@[simp] theorem State.globalWrite8_sp (s : State) (ea : Word) (v : Byte) : (s.globalWrite8 ea v).sp = s.sp := by simp [State.globalWrite8]
@[simp] theorem State.globalWrite8_pc (s : State) (ea : Word) (v : Byte) : (s.globalWrite8 ea v).pc = s.pc := by simp [State.globalWrite8]
@[simp] theorem State.globalWrite8_ccr (s : State) (ea : Word) (v : Byte) : (s.globalWrite8 ea v).ccr = s.ccr := by simp [State.globalWrite8]
@[simp] theorem State.globalWrite8_ccrh (s : State) (ea : Word) (v : Byte) : (s.globalWrite8 ea v).ccrh = s.ccrh := by simp [State.globalWrite8]
@[simp] theorem State.globalWrite8_tmp1 (s : State) (ea : Word) (v : Byte) : (s.globalWrite8 ea v).tmp1 = s.tmp1 := by simp [State.globalWrite8]
@[simp] theorem State.globalWrite8_tmp2 (s : State) (ea : Word) (v : Byte) : (s.globalWrite8 ea v).tmp2 = s.tmp2 := by simp [State.globalWrite8]
@[simp] theorem State.globalWrite8_tmp3 (s : State) (ea : Word) (v : Byte) : (s.globalWrite8 ea v).tmp3 = s.tmp3 := by simp [State.globalWrite8]
@[simp] theorem State.globalWrite8_runState (s : State) (ea : Word) (v : Byte) : (s.globalWrite8 ea v).runState = s.runState := by simp [State.globalWrite8]
@[simp] theorem State.globalWrite8_pending (s : State) (ea : Word) (v : Byte) : (s.globalWrite8 ea v).pending = s.pending := by simp [State.globalWrite8]
@[simp] theorem State.globalWrite8_queue (s : State) (ea : Word) (v : Byte) : (s.globalWrite8 ea v).queue = s.queue := by simp [State.globalWrite8]
@[simp] theorem State.globalWrite8_refilled (s : State) (ea : Word) (v : Byte) : (s.globalWrite8 ea v).refilled = s.refilled := by simp [State.globalWrite8]
@[simp] theorem State.globalWrite8_arrival (s : State) (ea : Word) (v : Byte) : (s.globalWrite8 ea v).arrival = s.arrival := by simp [State.globalWrite8]
@[simp] theorem State.globalWrite8_wavFrames (s : State) (ea : Word) (v : Byte) : (s.globalWrite8 ea v).wavFrames = s.wavFrames := by simp [State.globalWrite8]
@[simp] theorem State.globalWrite8_fresh (s : State) (ea : Word) (v : Byte) : (s.globalWrite8 ea v).fresh = s.fresh := by simp [State.globalWrite8]
@[simp] theorem State.globalWrite8_params (s : State) (ea : Word) (v : Byte) : (s.globalWrite8 ea v).params = s.params := by simp [State.globalWrite8]

/-! ### `globalWrite16` -/

@[simp] theorem State.globalWrite16_a (s : State) (ea v : Word) : (s.globalWrite16 ea v).a = s.a := by simp [State.globalWrite16]
@[simp] theorem State.globalWrite16_b (s : State) (ea v : Word) : (s.globalWrite16 ea v).b = s.b := by simp [State.globalWrite16]
@[simp] theorem State.globalWrite16_x (s : State) (ea v : Word) : (s.globalWrite16 ea v).x = s.x := by simp [State.globalWrite16]
@[simp] theorem State.globalWrite16_y (s : State) (ea v : Word) : (s.globalWrite16 ea v).y = s.y := by simp [State.globalWrite16]
@[simp] theorem State.globalWrite16_sp (s : State) (ea v : Word) : (s.globalWrite16 ea v).sp = s.sp := by simp [State.globalWrite16]
@[simp] theorem State.globalWrite16_pc (s : State) (ea v : Word) : (s.globalWrite16 ea v).pc = s.pc := by simp [State.globalWrite16]
@[simp] theorem State.globalWrite16_ccr (s : State) (ea v : Word) : (s.globalWrite16 ea v).ccr = s.ccr := by simp [State.globalWrite16]
@[simp] theorem State.globalWrite16_ccrh (s : State) (ea v : Word) : (s.globalWrite16 ea v).ccrh = s.ccrh := by simp [State.globalWrite16]
@[simp] theorem State.globalWrite16_tmp1 (s : State) (ea v : Word) : (s.globalWrite16 ea v).tmp1 = s.tmp1 := by simp [State.globalWrite16]
@[simp] theorem State.globalWrite16_tmp2 (s : State) (ea v : Word) : (s.globalWrite16 ea v).tmp2 = s.tmp2 := by simp [State.globalWrite16]
@[simp] theorem State.globalWrite16_tmp3 (s : State) (ea v : Word) : (s.globalWrite16 ea v).tmp3 = s.tmp3 := by simp [State.globalWrite16]
@[simp] theorem State.globalWrite16_runState (s : State) (ea v : Word) : (s.globalWrite16 ea v).runState = s.runState := by simp [State.globalWrite16]
@[simp] theorem State.globalWrite16_pending (s : State) (ea v : Word) : (s.globalWrite16 ea v).pending = s.pending := by simp [State.globalWrite16]
@[simp] theorem State.globalWrite16_queue (s : State) (ea v : Word) : (s.globalWrite16 ea v).queue = s.queue := by simp [State.globalWrite16]
@[simp] theorem State.globalWrite16_refilled (s : State) (ea v : Word) : (s.globalWrite16 ea v).refilled = s.refilled := by simp [State.globalWrite16]
@[simp] theorem State.globalWrite16_arrival (s : State) (ea v : Word) : (s.globalWrite16 ea v).arrival = s.arrival := by simp [State.globalWrite16]
@[simp] theorem State.globalWrite16_wavFrames (s : State) (ea v : Word) : (s.globalWrite16 ea v).wavFrames = s.wavFrames := by simp [State.globalWrite16]
@[simp] theorem State.globalWrite16_fresh (s : State) (ea v : Word) : (s.globalWrite16 ea v).fresh = s.fresh := by simp [State.globalWrite16]
@[simp] theorem State.globalWrite16_params (s : State) (ea v : Word) : (s.globalWrite16 ea v).params = s.params := by simp [State.globalWrite16]

/-! ### `push8` -/

@[simp] theorem State.push8_a (s : State) (v : Byte) : (s.push8 v).a = s.a := by simp [State.push8]
@[simp] theorem State.push8_b (s : State) (v : Byte) : (s.push8 v).b = s.b := by simp [State.push8]
@[simp] theorem State.push8_x (s : State) (v : Byte) : (s.push8 v).x = s.x := by simp [State.push8]
@[simp] theorem State.push8_y (s : State) (v : Byte) : (s.push8 v).y = s.y := by simp [State.push8]
@[simp] theorem State.push8_pc (s : State) (v : Byte) : (s.push8 v).pc = s.pc := by simp [State.push8]
@[simp] theorem State.push8_ccr (s : State) (v : Byte) : (s.push8 v).ccr = s.ccr := by simp [State.push8]
@[simp] theorem State.push8_ccrh (s : State) (v : Byte) : (s.push8 v).ccrh = s.ccrh := by simp [State.push8]
@[simp] theorem State.push8_tmp1 (s : State) (v : Byte) : (s.push8 v).tmp1 = s.tmp1 := by simp [State.push8]
@[simp] theorem State.push8_tmp2 (s : State) (v : Byte) : (s.push8 v).tmp2 = s.tmp2 := by simp [State.push8]
@[simp] theorem State.push8_tmp3 (s : State) (v : Byte) : (s.push8 v).tmp3 = s.tmp3 := by simp [State.push8]
@[simp] theorem State.push8_runState (s : State) (v : Byte) : (s.push8 v).runState = s.runState := by simp [State.push8]
@[simp] theorem State.push8_pending (s : State) (v : Byte) : (s.push8 v).pending = s.pending := by simp [State.push8]
@[simp] theorem State.push8_queue (s : State) (v : Byte) : (s.push8 v).queue = s.queue := by simp [State.push8]
@[simp] theorem State.push8_refilled (s : State) (v : Byte) : (s.push8 v).refilled = s.refilled := by simp [State.push8]
@[simp] theorem State.push8_arrival (s : State) (v : Byte) : (s.push8 v).arrival = s.arrival := by simp [State.push8]
@[simp] theorem State.push8_wavFrames (s : State) (v : Byte) : (s.push8 v).wavFrames = s.wavFrames := by simp [State.push8]
@[simp] theorem State.push8_fresh (s : State) (v : Byte) : (s.push8 v).fresh = s.fresh := by simp [State.push8]
@[simp] theorem State.push8_params (s : State) (v : Byte) : (s.push8 v).params = s.params := by simp [State.push8]

/-! ### `push16` -/

@[simp] theorem State.push16_a (s : State) (v : Word) : (s.push16 v).a = s.a := by simp [State.push16]
@[simp] theorem State.push16_b (s : State) (v : Word) : (s.push16 v).b = s.b := by simp [State.push16]
@[simp] theorem State.push16_x (s : State) (v : Word) : (s.push16 v).x = s.x := by simp [State.push16]
@[simp] theorem State.push16_y (s : State) (v : Word) : (s.push16 v).y = s.y := by simp [State.push16]
@[simp] theorem State.push16_pc (s : State) (v : Word) : (s.push16 v).pc = s.pc := by simp [State.push16]
@[simp] theorem State.push16_ccr (s : State) (v : Word) : (s.push16 v).ccr = s.ccr := by simp [State.push16]
@[simp] theorem State.push16_ccrh (s : State) (v : Word) : (s.push16 v).ccrh = s.ccrh := by simp [State.push16]
@[simp] theorem State.push16_tmp1 (s : State) (v : Word) : (s.push16 v).tmp1 = s.tmp1 := by simp [State.push16]
@[simp] theorem State.push16_tmp2 (s : State) (v : Word) : (s.push16 v).tmp2 = s.tmp2 := by simp [State.push16]
@[simp] theorem State.push16_tmp3 (s : State) (v : Word) : (s.push16 v).tmp3 = s.tmp3 := by simp [State.push16]
@[simp] theorem State.push16_runState (s : State) (v : Word) : (s.push16 v).runState = s.runState := by simp [State.push16]
@[simp] theorem State.push16_pending (s : State) (v : Word) : (s.push16 v).pending = s.pending := by simp [State.push16]
@[simp] theorem State.push16_queue (s : State) (v : Word) : (s.push16 v).queue = s.queue := by simp [State.push16]
@[simp] theorem State.push16_refilled (s : State) (v : Word) : (s.push16 v).refilled = s.refilled := by simp [State.push16]
@[simp] theorem State.push16_arrival (s : State) (v : Word) : (s.push16 v).arrival = s.arrival := by simp [State.push16]
@[simp] theorem State.push16_wavFrames (s : State) (v : Word) : (s.push16 v).wavFrames = s.wavFrames := by simp [State.push16]
@[simp] theorem State.push16_fresh (s : State) (v : Word) : (s.push16 v).fresh = s.fresh := by simp [State.push16]
@[simp] theorem State.push16_params (s : State) (v : Word) : (s.push16 v).params = s.params := by simp [State.push16]
@[simp] theorem State.push8_sp (s : State) (v : Byte) : (s.push8 v).sp = s.sp - 1 := by simp [State.push8]
@[simp] theorem State.push16_sp (s : State) (v : Word) : (s.push16 v).sp = s.sp - 2 := by simp [State.push16]

/-! ### `accessed` -/

@[simp] theorem State.accessed_a (s : State) (p : Place) : (s.accessed p).a = s.a := by cases p <;> rfl
@[simp] theorem State.accessed_b (s : State) (p : Place) : (s.accessed p).b = s.b := by cases p <;> rfl
@[simp] theorem State.accessed_x (s : State) (p : Place) : (s.accessed p).x = s.x := by cases p <;> rfl
@[simp] theorem State.accessed_y (s : State) (p : Place) : (s.accessed p).y = s.y := by cases p <;> rfl
@[simp] theorem State.accessed_sp (s : State) (p : Place) : (s.accessed p).sp = s.sp := by cases p <;> rfl
@[simp] theorem State.accessed_pc (s : State) (p : Place) : (s.accessed p).pc = s.pc := by cases p <;> rfl
@[simp] theorem State.accessed_ccr (s : State) (p : Place) : (s.accessed p).ccr = s.ccr := by cases p <;> rfl
@[simp] theorem State.accessed_ccrh (s : State) (p : Place) : (s.accessed p).ccrh = s.ccrh := by cases p <;> rfl
@[simp] theorem State.accessed_ppage (s : State) (p : Place) : (s.accessed p).ppage = s.ppage := by cases p <;> rfl
@[simp] theorem State.accessed_gpage (s : State) (p : Place) : (s.accessed p).gpage = s.gpage := by cases p <;> rfl
@[simp] theorem State.accessed_tmp1 (s : State) (p : Place) : (s.accessed p).tmp1 = s.tmp1 := by cases p <;> rfl
@[simp] theorem State.accessed_tmp2 (s : State) (p : Place) : (s.accessed p).tmp2 = s.tmp2 := by cases p <;> rfl
@[simp] theorem State.accessed_tmp3 (s : State) (p : Place) : (s.accessed p).tmp3 = s.tmp3 := by cases p <;> rfl
@[simp] theorem State.accessed_mem (s : State) (p : Place) : (s.accessed p).mem = s.mem := by cases p <;> rfl
@[simp] theorem State.accessed_gmem (s : State) (p : Place) : (s.accessed p).gmem = s.gmem := by cases p <;> rfl
@[simp] theorem State.accessed_runState (s : State) (p : Place) : (s.accessed p).runState = s.runState := by cases p <;> rfl
@[simp] theorem State.accessed_pending (s : State) (p : Place) : (s.accessed p).pending = s.pending := by cases p <;> rfl
@[simp] theorem State.accessed_queue (s : State) (p : Place) : (s.accessed p).queue = s.queue := by cases p <;> rfl
@[simp] theorem State.accessed_refilled (s : State) (p : Place) : (s.accessed p).refilled = s.refilled := by cases p <;> rfl
@[simp] theorem State.accessed_arrival (s : State) (p : Place) : (s.accessed p).arrival = s.arrival := by cases p <;> rfl
@[simp] theorem State.accessed_wavFrames (s : State) (p : Place) : (s.accessed p).wavFrames = s.wavFrames := by cases p <;> rfl
@[simp] theorem State.accessed_fresh (s : State) (p : Place) : (s.accessed p).fresh = s.fresh := by cases p <;> rfl
@[simp] theorem State.accessed_params (s : State) (p : Place) : (s.accessed p).params = s.params := by cases p <;> rfl

/-! ### `touched8` -/

@[simp] theorem State.touched8_a (s : State) (addr : Word) : (s.touched8 addr).a = s.a := by simp [State.touched8]
@[simp] theorem State.touched8_b (s : State) (addr : Word) : (s.touched8 addr).b = s.b := by simp [State.touched8]
@[simp] theorem State.touched8_x (s : State) (addr : Word) : (s.touched8 addr).x = s.x := by simp [State.touched8]
@[simp] theorem State.touched8_y (s : State) (addr : Word) : (s.touched8 addr).y = s.y := by simp [State.touched8]
@[simp] theorem State.touched8_sp (s : State) (addr : Word) : (s.touched8 addr).sp = s.sp := by simp [State.touched8]
@[simp] theorem State.touched8_pc (s : State) (addr : Word) : (s.touched8 addr).pc = s.pc := by simp [State.touched8]
@[simp] theorem State.touched8_ccr (s : State) (addr : Word) : (s.touched8 addr).ccr = s.ccr := by simp [State.touched8]
@[simp] theorem State.touched8_ccrh (s : State) (addr : Word) : (s.touched8 addr).ccrh = s.ccrh := by simp [State.touched8]
@[simp] theorem State.touched8_ppage (s : State) (addr : Word) : (s.touched8 addr).ppage = s.ppage := by simp [State.touched8]
@[simp] theorem State.touched8_gpage (s : State) (addr : Word) : (s.touched8 addr).gpage = s.gpage := by simp [State.touched8]
@[simp] theorem State.touched8_tmp1 (s : State) (addr : Word) : (s.touched8 addr).tmp1 = s.tmp1 := by simp [State.touched8]
@[simp] theorem State.touched8_tmp2 (s : State) (addr : Word) : (s.touched8 addr).tmp2 = s.tmp2 := by simp [State.touched8]
@[simp] theorem State.touched8_tmp3 (s : State) (addr : Word) : (s.touched8 addr).tmp3 = s.tmp3 := by simp [State.touched8]
@[simp] theorem State.touched8_mem (s : State) (addr : Word) : (s.touched8 addr).mem = s.mem := by simp [State.touched8]
@[simp] theorem State.touched8_gmem (s : State) (addr : Word) : (s.touched8 addr).gmem = s.gmem := by simp [State.touched8]
@[simp] theorem State.touched8_runState (s : State) (addr : Word) : (s.touched8 addr).runState = s.runState := by simp [State.touched8]
@[simp] theorem State.touched8_pending (s : State) (addr : Word) : (s.touched8 addr).pending = s.pending := by simp [State.touched8]
@[simp] theorem State.touched8_queue (s : State) (addr : Word) : (s.touched8 addr).queue = s.queue := by simp [State.touched8]
@[simp] theorem State.touched8_refilled (s : State) (addr : Word) : (s.touched8 addr).refilled = s.refilled := by simp [State.touched8]
@[simp] theorem State.touched8_arrival (s : State) (addr : Word) : (s.touched8 addr).arrival = s.arrival := by simp [State.touched8]
@[simp] theorem State.touched8_wavFrames (s : State) (addr : Word) : (s.touched8 addr).wavFrames = s.wavFrames := by simp [State.touched8]
@[simp] theorem State.touched8_fresh (s : State) (addr : Word) : (s.touched8 addr).fresh = s.fresh := by simp [State.touched8]
@[simp] theorem State.touched8_params (s : State) (addr : Word) : (s.touched8 addr).params = s.params := by simp [State.touched8]

/-! ### `touched16` -/

@[simp] theorem State.touched16_a (s : State) (addr : Word) : (s.touched16 addr).a = s.a := by simp [State.touched16]
@[simp] theorem State.touched16_b (s : State) (addr : Word) : (s.touched16 addr).b = s.b := by simp [State.touched16]
@[simp] theorem State.touched16_x (s : State) (addr : Word) : (s.touched16 addr).x = s.x := by simp [State.touched16]
@[simp] theorem State.touched16_y (s : State) (addr : Word) : (s.touched16 addr).y = s.y := by simp [State.touched16]
@[simp] theorem State.touched16_sp (s : State) (addr : Word) : (s.touched16 addr).sp = s.sp := by simp [State.touched16]
@[simp] theorem State.touched16_pc (s : State) (addr : Word) : (s.touched16 addr).pc = s.pc := by simp [State.touched16]
@[simp] theorem State.touched16_ccr (s : State) (addr : Word) : (s.touched16 addr).ccr = s.ccr := by simp [State.touched16]
@[simp] theorem State.touched16_ccrh (s : State) (addr : Word) : (s.touched16 addr).ccrh = s.ccrh := by simp [State.touched16]
@[simp] theorem State.touched16_ppage (s : State) (addr : Word) : (s.touched16 addr).ppage = s.ppage := by simp [State.touched16]
@[simp] theorem State.touched16_gpage (s : State) (addr : Word) : (s.touched16 addr).gpage = s.gpage := by simp [State.touched16]
@[simp] theorem State.touched16_tmp1 (s : State) (addr : Word) : (s.touched16 addr).tmp1 = s.tmp1 := by simp [State.touched16]
@[simp] theorem State.touched16_tmp2 (s : State) (addr : Word) : (s.touched16 addr).tmp2 = s.tmp2 := by simp [State.touched16]
@[simp] theorem State.touched16_tmp3 (s : State) (addr : Word) : (s.touched16 addr).tmp3 = s.tmp3 := by simp [State.touched16]
@[simp] theorem State.touched16_mem (s : State) (addr : Word) : (s.touched16 addr).mem = s.mem := by simp [State.touched16]
@[simp] theorem State.touched16_gmem (s : State) (addr : Word) : (s.touched16 addr).gmem = s.gmem := by simp [State.touched16]
@[simp] theorem State.touched16_runState (s : State) (addr : Word) : (s.touched16 addr).runState = s.runState := by simp [State.touched16]
@[simp] theorem State.touched16_pending (s : State) (addr : Word) : (s.touched16 addr).pending = s.pending := by simp [State.touched16]
@[simp] theorem State.touched16_queue (s : State) (addr : Word) : (s.touched16 addr).queue = s.queue := by simp [State.touched16]
@[simp] theorem State.touched16_refilled (s : State) (addr : Word) : (s.touched16 addr).refilled = s.refilled := by simp [State.touched16]
@[simp] theorem State.touched16_arrival (s : State) (addr : Word) : (s.touched16 addr).arrival = s.arrival := by simp [State.touched16]
@[simp] theorem State.touched16_wavFrames (s : State) (addr : Word) : (s.touched16 addr).wavFrames = s.wavFrames := by simp [State.touched16]
@[simp] theorem State.touched16_fresh (s : State) (addr : Word) : (s.touched16 addr).fresh = s.fresh := by simp [State.touched16]
@[simp] theorem State.touched16_params (s : State) (addr : Word) : (s.touched16 addr).params = s.params := by simp [State.touched16]

/-! ### `touched32` -/

@[simp] theorem State.touched32_a (s : State) (addr : Word) : (s.touched32 addr).a = s.a := by simp [State.touched32]
@[simp] theorem State.touched32_b (s : State) (addr : Word) : (s.touched32 addr).b = s.b := by simp [State.touched32]
@[simp] theorem State.touched32_x (s : State) (addr : Word) : (s.touched32 addr).x = s.x := by simp [State.touched32]
@[simp] theorem State.touched32_y (s : State) (addr : Word) : (s.touched32 addr).y = s.y := by simp [State.touched32]
@[simp] theorem State.touched32_sp (s : State) (addr : Word) : (s.touched32 addr).sp = s.sp := by simp [State.touched32]
@[simp] theorem State.touched32_pc (s : State) (addr : Word) : (s.touched32 addr).pc = s.pc := by simp [State.touched32]
@[simp] theorem State.touched32_ccr (s : State) (addr : Word) : (s.touched32 addr).ccr = s.ccr := by simp [State.touched32]
@[simp] theorem State.touched32_ccrh (s : State) (addr : Word) : (s.touched32 addr).ccrh = s.ccrh := by simp [State.touched32]
@[simp] theorem State.touched32_ppage (s : State) (addr : Word) : (s.touched32 addr).ppage = s.ppage := by simp [State.touched32]
@[simp] theorem State.touched32_gpage (s : State) (addr : Word) : (s.touched32 addr).gpage = s.gpage := by simp [State.touched32]
@[simp] theorem State.touched32_tmp1 (s : State) (addr : Word) : (s.touched32 addr).tmp1 = s.tmp1 := by simp [State.touched32]
@[simp] theorem State.touched32_tmp2 (s : State) (addr : Word) : (s.touched32 addr).tmp2 = s.tmp2 := by simp [State.touched32]
@[simp] theorem State.touched32_tmp3 (s : State) (addr : Word) : (s.touched32 addr).tmp3 = s.tmp3 := by simp [State.touched32]
@[simp] theorem State.touched32_mem (s : State) (addr : Word) : (s.touched32 addr).mem = s.mem := by simp [State.touched32]
@[simp] theorem State.touched32_gmem (s : State) (addr : Word) : (s.touched32 addr).gmem = s.gmem := by simp [State.touched32]
@[simp] theorem State.touched32_runState (s : State) (addr : Word) : (s.touched32 addr).runState = s.runState := by simp [State.touched32]
@[simp] theorem State.touched32_pending (s : State) (addr : Word) : (s.touched32 addr).pending = s.pending := by simp [State.touched32]
@[simp] theorem State.touched32_queue (s : State) (addr : Word) : (s.touched32 addr).queue = s.queue := by simp [State.touched32]
@[simp] theorem State.touched32_refilled (s : State) (addr : Word) : (s.touched32 addr).refilled = s.refilled := by simp [State.touched32]
@[simp] theorem State.touched32_arrival (s : State) (addr : Word) : (s.touched32 addr).arrival = s.arrival := by simp [State.touched32]
@[simp] theorem State.touched32_wavFrames (s : State) (addr : Word) : (s.touched32 addr).wavFrames = s.wavFrames := by simp [State.touched32]
@[simp] theorem State.touched32_fresh (s : State) (addr : Word) : (s.touched32 addr).fresh = s.fresh := by simp [State.touched32]
@[simp] theorem State.touched32_params (s : State) (addr : Word) : (s.touched32 addr).params = s.params := by simp [State.touched32]

/-! ### `globalTouched8` -/

@[simp] theorem State.globalTouched8_a (s : State) (ea : Word) : (s.globalTouched8 ea).a = s.a := by simp [State.globalTouched8]
@[simp] theorem State.globalTouched8_b (s : State) (ea : Word) : (s.globalTouched8 ea).b = s.b := by simp [State.globalTouched8]
@[simp] theorem State.globalTouched8_x (s : State) (ea : Word) : (s.globalTouched8 ea).x = s.x := by simp [State.globalTouched8]
@[simp] theorem State.globalTouched8_y (s : State) (ea : Word) : (s.globalTouched8 ea).y = s.y := by simp [State.globalTouched8]
@[simp] theorem State.globalTouched8_sp (s : State) (ea : Word) : (s.globalTouched8 ea).sp = s.sp := by simp [State.globalTouched8]
@[simp] theorem State.globalTouched8_pc (s : State) (ea : Word) : (s.globalTouched8 ea).pc = s.pc := by simp [State.globalTouched8]
@[simp] theorem State.globalTouched8_ccr (s : State) (ea : Word) : (s.globalTouched8 ea).ccr = s.ccr := by simp [State.globalTouched8]
@[simp] theorem State.globalTouched8_ccrh (s : State) (ea : Word) : (s.globalTouched8 ea).ccrh = s.ccrh := by simp [State.globalTouched8]
@[simp] theorem State.globalTouched8_ppage (s : State) (ea : Word) : (s.globalTouched8 ea).ppage = s.ppage := by simp [State.globalTouched8]
@[simp] theorem State.globalTouched8_gpage (s : State) (ea : Word) : (s.globalTouched8 ea).gpage = s.gpage := by simp [State.globalTouched8]
@[simp] theorem State.globalTouched8_tmp1 (s : State) (ea : Word) : (s.globalTouched8 ea).tmp1 = s.tmp1 := by simp [State.globalTouched8]
@[simp] theorem State.globalTouched8_tmp2 (s : State) (ea : Word) : (s.globalTouched8 ea).tmp2 = s.tmp2 := by simp [State.globalTouched8]
@[simp] theorem State.globalTouched8_tmp3 (s : State) (ea : Word) : (s.globalTouched8 ea).tmp3 = s.tmp3 := by simp [State.globalTouched8]
@[simp] theorem State.globalTouched8_mem (s : State) (ea : Word) : (s.globalTouched8 ea).mem = s.mem := by simp [State.globalTouched8]
@[simp] theorem State.globalTouched8_gmem (s : State) (ea : Word) : (s.globalTouched8 ea).gmem = s.gmem := by simp [State.globalTouched8]
@[simp] theorem State.globalTouched8_runState (s : State) (ea : Word) : (s.globalTouched8 ea).runState = s.runState := by simp [State.globalTouched8]
@[simp] theorem State.globalTouched8_pending (s : State) (ea : Word) : (s.globalTouched8 ea).pending = s.pending := by simp [State.globalTouched8]
@[simp] theorem State.globalTouched8_queue (s : State) (ea : Word) : (s.globalTouched8 ea).queue = s.queue := by simp [State.globalTouched8]
@[simp] theorem State.globalTouched8_refilled (s : State) (ea : Word) : (s.globalTouched8 ea).refilled = s.refilled := by simp [State.globalTouched8]
@[simp] theorem State.globalTouched8_arrival (s : State) (ea : Word) : (s.globalTouched8 ea).arrival = s.arrival := by simp [State.globalTouched8]
@[simp] theorem State.globalTouched8_wavFrames (s : State) (ea : Word) : (s.globalTouched8 ea).wavFrames = s.wavFrames := by simp [State.globalTouched8]
@[simp] theorem State.globalTouched8_fresh (s : State) (ea : Word) : (s.globalTouched8 ea).fresh = s.fresh := by simp [State.globalTouched8]
@[simp] theorem State.globalTouched8_params (s : State) (ea : Word) : (s.globalTouched8 ea).params = s.params := by simp [State.globalTouched8]

/-! ### `globalTouched16` -/

@[simp] theorem State.globalTouched16_a (s : State) (ea : Word) : (s.globalTouched16 ea).a = s.a := by simp [State.globalTouched16]
@[simp] theorem State.globalTouched16_b (s : State) (ea : Word) : (s.globalTouched16 ea).b = s.b := by simp [State.globalTouched16]
@[simp] theorem State.globalTouched16_x (s : State) (ea : Word) : (s.globalTouched16 ea).x = s.x := by simp [State.globalTouched16]
@[simp] theorem State.globalTouched16_y (s : State) (ea : Word) : (s.globalTouched16 ea).y = s.y := by simp [State.globalTouched16]
@[simp] theorem State.globalTouched16_sp (s : State) (ea : Word) : (s.globalTouched16 ea).sp = s.sp := by simp [State.globalTouched16]
@[simp] theorem State.globalTouched16_pc (s : State) (ea : Word) : (s.globalTouched16 ea).pc = s.pc := by simp [State.globalTouched16]
@[simp] theorem State.globalTouched16_ccr (s : State) (ea : Word) : (s.globalTouched16 ea).ccr = s.ccr := by simp [State.globalTouched16]
@[simp] theorem State.globalTouched16_ccrh (s : State) (ea : Word) : (s.globalTouched16 ea).ccrh = s.ccrh := by simp [State.globalTouched16]
@[simp] theorem State.globalTouched16_ppage (s : State) (ea : Word) : (s.globalTouched16 ea).ppage = s.ppage := by simp [State.globalTouched16]
@[simp] theorem State.globalTouched16_gpage (s : State) (ea : Word) : (s.globalTouched16 ea).gpage = s.gpage := by simp [State.globalTouched16]
@[simp] theorem State.globalTouched16_tmp1 (s : State) (ea : Word) : (s.globalTouched16 ea).tmp1 = s.tmp1 := by simp [State.globalTouched16]
@[simp] theorem State.globalTouched16_tmp2 (s : State) (ea : Word) : (s.globalTouched16 ea).tmp2 = s.tmp2 := by simp [State.globalTouched16]
@[simp] theorem State.globalTouched16_tmp3 (s : State) (ea : Word) : (s.globalTouched16 ea).tmp3 = s.tmp3 := by simp [State.globalTouched16]
@[simp] theorem State.globalTouched16_mem (s : State) (ea : Word) : (s.globalTouched16 ea).mem = s.mem := by simp [State.globalTouched16]
@[simp] theorem State.globalTouched16_gmem (s : State) (ea : Word) : (s.globalTouched16 ea).gmem = s.gmem := by simp [State.globalTouched16]
@[simp] theorem State.globalTouched16_runState (s : State) (ea : Word) : (s.globalTouched16 ea).runState = s.runState := by simp [State.globalTouched16]
@[simp] theorem State.globalTouched16_pending (s : State) (ea : Word) : (s.globalTouched16 ea).pending = s.pending := by simp [State.globalTouched16]
@[simp] theorem State.globalTouched16_queue (s : State) (ea : Word) : (s.globalTouched16 ea).queue = s.queue := by simp [State.globalTouched16]
@[simp] theorem State.globalTouched16_refilled (s : State) (ea : Word) : (s.globalTouched16 ea).refilled = s.refilled := by simp [State.globalTouched16]
@[simp] theorem State.globalTouched16_arrival (s : State) (ea : Word) : (s.globalTouched16 ea).arrival = s.arrival := by simp [State.globalTouched16]
@[simp] theorem State.globalTouched16_wavFrames (s : State) (ea : Word) : (s.globalTouched16 ea).wavFrames = s.wavFrames := by simp [State.globalTouched16]
@[simp] theorem State.globalTouched16_fresh (s : State) (ea : Word) : (s.globalTouched16 ea).fresh = s.fresh := by simp [State.globalTouched16]
@[simp] theorem State.globalTouched16_params (s : State) (ea : Word) : (s.globalTouched16 ea).params = s.params := by simp [State.globalTouched16]

/-! ### `touchedVector` -/

@[simp] theorem State.touchedVector_a (s : State) (vec : Word) : (s.touchedVector vec).a = s.a := by simp [State.touchedVector]
@[simp] theorem State.touchedVector_b (s : State) (vec : Word) : (s.touchedVector vec).b = s.b := by simp [State.touchedVector]
@[simp] theorem State.touchedVector_x (s : State) (vec : Word) : (s.touchedVector vec).x = s.x := by simp [State.touchedVector]
@[simp] theorem State.touchedVector_y (s : State) (vec : Word) : (s.touchedVector vec).y = s.y := by simp [State.touchedVector]
@[simp] theorem State.touchedVector_sp (s : State) (vec : Word) : (s.touchedVector vec).sp = s.sp := by simp [State.touchedVector]
@[simp] theorem State.touchedVector_pc (s : State) (vec : Word) : (s.touchedVector vec).pc = s.pc := by simp [State.touchedVector]
@[simp] theorem State.touchedVector_ccr (s : State) (vec : Word) : (s.touchedVector vec).ccr = s.ccr := by simp [State.touchedVector]
@[simp] theorem State.touchedVector_ccrh (s : State) (vec : Word) : (s.touchedVector vec).ccrh = s.ccrh := by simp [State.touchedVector]
@[simp] theorem State.touchedVector_ppage (s : State) (vec : Word) : (s.touchedVector vec).ppage = s.ppage := by simp [State.touchedVector]
@[simp] theorem State.touchedVector_gpage (s : State) (vec : Word) : (s.touchedVector vec).gpage = s.gpage := by simp [State.touchedVector]
@[simp] theorem State.touchedVector_tmp1 (s : State) (vec : Word) : (s.touchedVector vec).tmp1 = s.tmp1 := by simp [State.touchedVector]
@[simp] theorem State.touchedVector_tmp2 (s : State) (vec : Word) : (s.touchedVector vec).tmp2 = s.tmp2 := by simp [State.touchedVector]
@[simp] theorem State.touchedVector_tmp3 (s : State) (vec : Word) : (s.touchedVector vec).tmp3 = s.tmp3 := by simp [State.touchedVector]
@[simp] theorem State.touchedVector_mem (s : State) (vec : Word) : (s.touchedVector vec).mem = s.mem := by simp [State.touchedVector]
@[simp] theorem State.touchedVector_gmem (s : State) (vec : Word) : (s.touchedVector vec).gmem = s.gmem := by simp [State.touchedVector]
@[simp] theorem State.touchedVector_runState (s : State) (vec : Word) : (s.touchedVector vec).runState = s.runState := by simp [State.touchedVector]
@[simp] theorem State.touchedVector_pending (s : State) (vec : Word) : (s.touchedVector vec).pending = s.pending := by simp [State.touchedVector]
@[simp] theorem State.touchedVector_queue (s : State) (vec : Word) : (s.touchedVector vec).queue = s.queue := by simp [State.touchedVector]
@[simp] theorem State.touchedVector_refilled (s : State) (vec : Word) : (s.touchedVector vec).refilled = s.refilled := by simp [State.touchedVector]
@[simp] theorem State.touchedVector_arrival (s : State) (vec : Word) : (s.touchedVector vec).arrival = s.arrival := by simp [State.touchedVector]
@[simp] theorem State.touchedVector_wavFrames (s : State) (vec : Word) : (s.touchedVector vec).wavFrames = s.wavFrames := by simp [State.touchedVector]
@[simp] theorem State.touchedVector_fresh (s : State) (vec : Word) : (s.touchedVector vec).fresh = s.fresh := by simp [State.touchedVector]
@[simp] theorem State.touchedVector_params (s : State) (vec : Word) : (s.touchedVector vec).params = s.params := by simp [State.touchedVector]

/-! ### `pulled8` -/

@[simp] theorem State.pulled8_a (s : State) : (s.pulled8).a = s.a := by simp [State.pulled8]
@[simp] theorem State.pulled8_b (s : State) : (s.pulled8).b = s.b := by simp [State.pulled8]
@[simp] theorem State.pulled8_x (s : State) : (s.pulled8).x = s.x := by simp [State.pulled8]
@[simp] theorem State.pulled8_y (s : State) : (s.pulled8).y = s.y := by simp [State.pulled8]
@[simp] theorem State.pulled8_pc (s : State) : (s.pulled8).pc = s.pc := by simp [State.pulled8]
@[simp] theorem State.pulled8_ccr (s : State) : (s.pulled8).ccr = s.ccr := by simp [State.pulled8]
@[simp] theorem State.pulled8_ccrh (s : State) : (s.pulled8).ccrh = s.ccrh := by simp [State.pulled8]
@[simp] theorem State.pulled8_ppage (s : State) : (s.pulled8).ppage = s.ppage := by simp [State.pulled8]
@[simp] theorem State.pulled8_gpage (s : State) : (s.pulled8).gpage = s.gpage := by simp [State.pulled8]
@[simp] theorem State.pulled8_tmp1 (s : State) : (s.pulled8).tmp1 = s.tmp1 := by simp [State.pulled8]
@[simp] theorem State.pulled8_tmp2 (s : State) : (s.pulled8).tmp2 = s.tmp2 := by simp [State.pulled8]
@[simp] theorem State.pulled8_tmp3 (s : State) : (s.pulled8).tmp3 = s.tmp3 := by simp [State.pulled8]
@[simp] theorem State.pulled8_mem (s : State) : (s.pulled8).mem = s.mem := by simp [State.pulled8]
@[simp] theorem State.pulled8_gmem (s : State) : (s.pulled8).gmem = s.gmem := by simp [State.pulled8]
@[simp] theorem State.pulled8_runState (s : State) : (s.pulled8).runState = s.runState := by simp [State.pulled8]
@[simp] theorem State.pulled8_pending (s : State) : (s.pulled8).pending = s.pending := by simp [State.pulled8]
@[simp] theorem State.pulled8_queue (s : State) : (s.pulled8).queue = s.queue := by simp [State.pulled8]
@[simp] theorem State.pulled8_refilled (s : State) : (s.pulled8).refilled = s.refilled := by simp [State.pulled8]
@[simp] theorem State.pulled8_arrival (s : State) : (s.pulled8).arrival = s.arrival := by simp [State.pulled8]
@[simp] theorem State.pulled8_wavFrames (s : State) : (s.pulled8).wavFrames = s.wavFrames := by simp [State.pulled8]
@[simp] theorem State.pulled8_fresh (s : State) : (s.pulled8).fresh = s.fresh := by simp [State.pulled8]
@[simp] theorem State.pulled8_params (s : State) : (s.pulled8).params = s.params := by simp [State.pulled8]
@[simp] theorem State.pulled8_sp (s : State) : s.pulled8.sp = s.sp + 1 := by simp [State.pulled8]

/-! ### `pulled16` -/

@[simp] theorem State.pulled16_a (s : State) : (s.pulled16).a = s.a := by simp [State.pulled16]
@[simp] theorem State.pulled16_b (s : State) : (s.pulled16).b = s.b := by simp [State.pulled16]
@[simp] theorem State.pulled16_x (s : State) : (s.pulled16).x = s.x := by simp [State.pulled16]
@[simp] theorem State.pulled16_y (s : State) : (s.pulled16).y = s.y := by simp [State.pulled16]
@[simp] theorem State.pulled16_pc (s : State) : (s.pulled16).pc = s.pc := by simp [State.pulled16]
@[simp] theorem State.pulled16_ccr (s : State) : (s.pulled16).ccr = s.ccr := by simp [State.pulled16]
@[simp] theorem State.pulled16_ccrh (s : State) : (s.pulled16).ccrh = s.ccrh := by simp [State.pulled16]
@[simp] theorem State.pulled16_ppage (s : State) : (s.pulled16).ppage = s.ppage := by simp [State.pulled16]
@[simp] theorem State.pulled16_gpage (s : State) : (s.pulled16).gpage = s.gpage := by simp [State.pulled16]
@[simp] theorem State.pulled16_tmp1 (s : State) : (s.pulled16).tmp1 = s.tmp1 := by simp [State.pulled16]
@[simp] theorem State.pulled16_tmp2 (s : State) : (s.pulled16).tmp2 = s.tmp2 := by simp [State.pulled16]
@[simp] theorem State.pulled16_tmp3 (s : State) : (s.pulled16).tmp3 = s.tmp3 := by simp [State.pulled16]
@[simp] theorem State.pulled16_mem (s : State) : (s.pulled16).mem = s.mem := by simp [State.pulled16]
@[simp] theorem State.pulled16_gmem (s : State) : (s.pulled16).gmem = s.gmem := by simp [State.pulled16]
@[simp] theorem State.pulled16_runState (s : State) : (s.pulled16).runState = s.runState := by simp [State.pulled16]
@[simp] theorem State.pulled16_pending (s : State) : (s.pulled16).pending = s.pending := by simp [State.pulled16]
@[simp] theorem State.pulled16_queue (s : State) : (s.pulled16).queue = s.queue := by simp [State.pulled16]
@[simp] theorem State.pulled16_refilled (s : State) : (s.pulled16).refilled = s.refilled := by simp [State.pulled16]
@[simp] theorem State.pulled16_arrival (s : State) : (s.pulled16).arrival = s.arrival := by simp [State.pulled16]
@[simp] theorem State.pulled16_wavFrames (s : State) : (s.pulled16).wavFrames = s.wavFrames := by simp [State.pulled16]
@[simp] theorem State.pulled16_fresh (s : State) : (s.pulled16).fresh = s.fresh := by simp [State.pulled16]
@[simp] theorem State.pulled16_params (s : State) : (s.pulled16).params = s.params := by simp [State.pulled16]
@[simp] theorem State.pulled16_sp (s : State) : s.pulled16.sp = s.sp + 2 := by simp [State.pulled16]

end Sys2Proof.Machine
end

