-- ==== Sys2Proof/Laws/Ops.lean ====
section
/-! SUPPORT. What each shared operation can do: one lemma for each, which later proofs cite and do not unfold it. -/

namespace Sys2Proof.Machine

/-! ### Flags -/

/-- A flag written reads as written, and every other flag as before. -/
@[simp] theorem flagOf_withFlag (k : Byte) (f g : Flag) (b : Bool) :
    flagOf (withFlag k f b) g = if f = g then b else flagOf k g := by
  cases f <;> cases g <;> cases b <;> simp [flagOf, withFlag, Flag.mask, Flag.bit]

@[simp] theorem State.flag_setCcr (s : State) (k : Byte) (f : Flag) : (s.setCcr k).flag f = flagOf k f := rfl

/-- A flag is a function of the condition code byte alone. -/
theorem State.flag_eq_of_ccr {s t : State} (h : t.ccr = s.ccr) (f : Flag) : t.flag f = s.flag f := by
  simp [State.flag, h]

/-- A condition code byte is its eight flags. -/
theorem ccr_ext {k l : Byte} (h : ∀ f, flagOf k f = flagOf l f) : k = l := by
  apply BitVec.eq_of_getLsbD_eq
  intro i hi
  have h0 := h .c
  have h1 := h .v
  have h2 := h .z
  have h3 := h .n
  have h4 := h .i
  have h5 := h .h
  have h6 := h .x
  have h7 := h .s
  simp only [flagOf, Flag.bit] at h0 h1 h2 h3 h4 h5 h6 h7
  match i, hi with
  | 0, _ => exact h0
  | 1, _ => exact h1
  | 2, _ => exact h2
  | 3, _ => exact h3
  | 4, _ => exact h4
  | 5, _ => exact h5
  | 6, _ => exact h6
  | 7, _ => exact h7

/-- `WriteCCR` gives every flag of the value but X, which it can only clear (R17). -/
theorem flagOf_writtenCcr (old v : Byte) (f : Flag) :
    flagOf (writtenCcr old v) f = if f = .x then flagOf v .x && flagOf old .x else flagOf v f := by
  simp only [writtenCcr, flagOf_withFlag]
  by_cases h : f = .x <;> simp [h, eq_comm]

/-! ### Places -/

/-- Where a logical access goes depends on PPAGE and on the platform alone. -/
theorem State.place_congr {s t : State} (hp : t.params = s.params) (hpage : t.ppage = s.ppage) (addr : Word) :
    t.place addr = s.place addr := by
  simp [State.place, hp, hpage]

/-- Where a global access goes depends on GPAGE, on PPAGE and on the platform alone. -/
theorem State.globalPlaceAt_congr {s t : State} (hp : t.params = s.params) (hpage : t.ppage = s.ppage)
    (hg : t.gpage = s.gpage) (ea : Word) (k : Nat) : t.globalPlaceAt ea k = s.globalPlaceAt ea k := by
  have key : ∀ (ws : List GlobalWindow) (g : Nat), t.globalPlace ws g = s.globalPlace ws g := by
    intro ws g
    induction ws with
    | nil => rfl
    | cons w rest ih =>
      simp only [State.globalPlace, ih]
      cases h : w.target <;> simp [State.targetPlace, State.place_congr hp hpage]
  simp [State.globalPlaceAt, State.globalAddress, hp, hg, key]

/-- What memory reads as depends on the two memories, the devices, the two page registers, the platform and the free
values. -/
structure SameMemory (s t : State) : Prop where
  mem : t.mem = s.mem
  gmem : t.gmem = s.gmem
  devices : t.devices = s.devices
  ppage : t.ppage = s.ppage
  gpage : t.gpage = s.gpage
  fresh : t.fresh = s.fresh
  params : t.params = s.params

theorem SameMemory.getPlace {s t : State} (h : SameMemory s t) (p : Place) : t.getPlace p = s.getPlace p := by
  cases p <;> simp [State.getPlace, h.mem, h.gmem, h.devices, h.ppage, h.gpage, h.fresh]

theorem SameMemory.place {s t : State} (h : SameMemory s t) (addr : Word) : t.place addr = s.place addr :=
  State.place_congr h.params h.ppage addr

theorem SameMemory.read8 {s t : State} (h : SameMemory s t) (addr : Word) : t.read8 addr = s.read8 addr := by
  simp [State.read8, h.place, h.getPlace]

theorem SameMemory.read16 {s t : State} (h : SameMemory s t) (addr : Word) : t.read16 addr = s.read16 addr := by
  simp [State.read16, h.read8]

theorem SameMemory.readsAsBefore {s t : State} (h : SameMemory s t) : ReadsAsBefore s t :=
  ⟨h.read8, fun ea k => by rw [State.globalPlaceAt_congr h.params h.ppage h.gpage, h.getPlace]⟩

/-! ### A read -/

/-- Where a logical access goes is not moved by a read. -/
@[simp] theorem State.place_accessed (s : State) (p : Place) (addr : Word) :
    (s.accessed p).place addr = s.place addr :=
  State.place_congr (by simp) (by simp) addr

@[simp] theorem State.place_touched8 (s : State) (a addr : Word) : (s.touched8 a).place addr = s.place addr :=
  State.place_congr (by simp) (by simp) addr

@[simp] theorem State.place_touched16 (s : State) (a addr : Word) : (s.touched16 a).place addr = s.place addr :=
  State.place_congr (by simp) (by simp) addr

/-- A read changes nothing but the state of the devices, and that only where it reads a device (R93). -/
theorem State.accessed_eq {s : State} {p : Place} (h : ∀ reg, p ≠ .device reg) : s.accessed p = s := by
  cases p <;> first | rfl | exact absurd rfl (h _)

theorem State.touched8_eq {s : State} {addr : Word} (h : ∀ reg, s.place addr ≠ .device reg) :
    s.touched8 addr = s :=
  State.accessed_eq h

theorem State.touched16_eq {s : State} {addr : Word} (h : ∀ reg, s.place addr ≠ .device reg)
    (h' : ∀ reg, s.place (addr + 1) ≠ .device reg) : s.touched16 addr = s := by
  rw [State.touched16, State.accessed_eq h, State.accessed_eq h']

/-- The same read of the same memory leaves the same memory. -/
theorem SameMemory.accessed {s t : State} (h : SameMemory s t) (p : Place) :
    SameMemory (s.accessed p) (t.accessed p) := by
  cases p with
  | device reg => exact ⟨h.mem, h.gmem, by simp [State.accessed, h.fresh, h.devices], h.ppage, h.gpage, h.fresh, h.params⟩
  | cell _ | rom _ | globalCell _ | globalRom _ | openBus _ | ppageReg | gpageReg => exact h

theorem SameMemory.touched8 {s t : State} (h : SameMemory s t) (addr : Word) :
    SameMemory (s.touched8 addr) (t.touched8 addr) := by
  rw [State.touched8, State.touched8, h.place]
  exact h.accessed _

theorem SameMemory.touched16 {s t : State} (h : SameMemory s t) (addr : Word) :
    SameMemory (s.touched16 addr) (t.touched16 addr) := by
  rw [State.touched16, State.touched16, h.place, h.place]
  exact (h.accessed _).accessed _

/-- A pull leaves the memory that its read leaves. -/
theorem State.pulled8_sameMemory (s : State) : SameMemory (s.touched8 s.sp) s.pulled8 :=
  ⟨rfl, rfl, rfl, rfl, rfl, rfl, rfl⟩

theorem State.pulled16_sameMemory (s : State) : SameMemory (s.touched16 s.sp) s.pulled16 :=
  ⟨rfl, rfl, rfl, rfl, rfl, rfl, rfl⟩

/-! ### One store -/

/-- The last byte stored at a place by one store. -/
@[simp] theorem lastByte_one (q p : Place) (v : Byte) : lastByte [(q, v)] p = if q = p then some v else none := rfl

/-- Reading a place that shares no byte with the one written gives what it gave. -/
theorem State.getPlace_putPlace_other {u : State} {p q : Place} {v : Byte} (h : q.overlaps p = false) :
    (u.putPlace p v).getPlace q = u.getPlace q := by
  cases p with
  | cell l =>
    cases q with
    | cell m => exact memGet_memSet_other (by simpa [Place.overlaps] using h)
    | rom m => exact memGet_memSet_other (by simpa [Place.overlaps] using h)
    | globalCell _ | globalRom _ | device _ | openBus _ | ppageReg | gpageReg => rfl
  | globalCell l =>
    cases q with
    | globalCell m => exact memGet_memSet_other (by simpa [Place.overlaps] using h)
    | globalRom m => exact memGet_memSet_other (by simpa [Place.overlaps] using h)
    | cell _ | rom _ | device _ | openBus _ | ppageReg | gpageReg => rfl
  | device reg => cases q <;> simp_all [Place.overlaps, State.putPlace, State.getPlace]
  | rom _ | globalRom _ | openBus _ => rfl
  | ppageReg => cases q <;> simp_all [Place.overlaps, State.putPlace, State.getPlace]
  | gpageReg => cases q <;> simp_all [Place.overlaps, State.putPlace, State.getPlace]

/-- Where a logical access goes is not moved by a store elsewhere than to PPAGE. -/
theorem State.place_putPlace {u : State} {p : Place} (v : Byte) (h : p ≠ .ppageReg) (addr : Word) :
    (u.putPlace p v).place addr = u.place addr := by
  apply State.place_congr (State.putPlace_params u p v)
  cases p <;> first | rfl | exact absurd rfl h

/-- Everything one store of a byte does. -/
theorem State.putPlace_stored {u : State} (h : memWf u.mem = true) (hg : memWf u.gmem = true) (p : Place) (v : Byte) :
    Stored [(p, v)] u (u.putPlace p v) where
  mem loc := by
    cases p with
    | cell l =>
      by_cases heq : l = loc
      · subst heq; simp [State.putPlace, memGet_memSet_same h]
      · simp [State.putPlace, heq, memGet_memSet_other (Ne.symm heq)]
    | rom _ | globalCell _ | globalRom _ | device _ | openBus _ | ppageReg | gpageReg => simp [State.putPlace]
  gmem loc := by
    cases p with
    | globalCell l =>
      by_cases heq : l = loc
      · subst heq; simp [State.putPlace, memGet_memSet_same hg]
      · simp [State.putPlace, heq, memGet_memSet_other (Ne.symm heq)]
    | rom _ | cell _ | globalRom _ | device _ | openBus _ | ppageReg | gpageReg => simp [State.putPlace]
  ppage := by cases p <;> simp [State.putPlace]
  gpage := by cases p <;> simp [State.putPlace]
  devices := by cases p <;> simp [State.putPlace, devicesAfter]
  read hp addr hq := by
    have hne : p ≠ .ppageReg := by simpa using hp
    rw [State.read8, State.place_putPlace v hne, State.getPlace_putPlace_other (by simpa using hq), State.read8]

/-- A store keeps both memories canonical and GPAGE in its range. -/
theorem State.putPlace_inv {u : State} (h : u.Inv) (p : Place) (v : Byte) : (u.putPlace p v).Inv := by
  cases p with
  | cell l => exact ⟨memSet_wf l v h.mem, h.gmem, h.gpage⟩
  | globalCell l => exact ⟨h.mem, memSet_wf l v h.gmem, h.gpage⟩
  | rom _ | globalRom _ | openBus _ => exact h
  | device _ => exact ⟨h.mem, h.gmem, h.gpage⟩
  | ppageReg => exact ⟨h.mem, h.gmem, h.gpage⟩
  | gpageReg => exact ⟨h.mem, h.gmem, Nat.mod_lt _ (Nat.two_pow_pos _)⟩

/-! ### Several stores -/

theorem lastByte_append (xs ys : List (Place × Byte)) (p : Place) :
    lastByte (xs ++ ys) p = (lastByte ys p).or (lastByte xs p) := by
  induction xs with
  | nil => simp [lastByte]
  | cons head rest ih =>
    simp only [List.cons_append, lastByte, ih]
    cases lastByte ys p <;> cases lastByte rest p <;> simp

theorem devicesAfter_append (fresh : Nat) (xs ys : List (Place × Byte)) (d : Nat) :
    devicesAfter fresh (xs ++ ys) d = devicesAfter fresh ys (devicesAfter fresh xs d) := by
  induction xs generalizing d with
  | nil => rfl
  | cons head rest ih =>
    obtain ⟨p, v⟩ := head
    cases p <;> simp only [List.cons_append, devicesAfter, ih]

/-- Stores one after another are the stores of both lists. -/
theorem Stored.append {xs ys : List (Place × Byte)} {u t w : State} (h : Stored xs u t) (h' : Stored ys t w)
    (hp : t.params = u.params) (hf : t.fresh = u.fresh) : Stored (xs ++ ys) u w where
  devices := by rw [h'.devices, h.devices, hf, devicesAfter_append]
  mem loc := by rw [h'.mem, h.mem, lastByte_append]; cases lastByte ys (.cell loc) <;> rfl
  gmem loc := by rw [h'.gmem, h.gmem, lastByte_append]; cases lastByte ys (.globalCell loc) <;> rfl
  ppage := by rw [h'.ppage, h.ppage, lastByte_append]; cases lastByte ys .ppageReg <;> rfl
  gpage := by rw [h'.gpage, h.gpage, lastByte_append, hp]; cases lastByte ys .gpageReg <;> rfl
  read hne addr hq := by
    have key : ∀ zs : List (Place × Byte), (∀ p ∈ zs, p.1 ≠ .ppageReg) → lastByte zs .ppageReg = none := by
      intro zs
      induction zs with
      | nil => intro _; rfl
      | cons head rest ih =>
        intro hz
        have h1 := ih fun p hp => hz p (List.mem_cons_of_mem _ hp)
        simp [lastByte, h1, hz head List.mem_cons_self]
    have hpage : t.ppage = u.ppage := by
      rw [h.ppage, key xs fun p hp => hne p (List.mem_append_left _ hp)]; rfl
    rw [h'.read (fun p hp => hne p (List.mem_append_right _ hp)) addr
        (fun p hm => by rw [State.place_congr hp hpage]; exact hq p (List.mem_append_right _ hm)),
      h.read (fun p hp => hne p (List.mem_append_left _ hp)) addr
        (fun p hp => hq p (List.mem_append_left _ hp))]

/-- Everything `MemWrite(addr, 1, v)` does. -/
theorem State.write8_stored {u : State} (h : memWf u.mem = true) (hg : memWf u.gmem = true) (addr : Word) (v : Byte) :
    Stored [(u.place addr, v)] u (u.write8 addr v) :=
  State.putPlace_stored h hg _ v

/-- A canonical memory stays so under a store. -/
theorem State.putPlace_mem_wf {u : State} (h : memWf u.mem = true) (p : Place) (v : Byte) :
    memWf (u.putPlace p v).mem = true := by
  cases p <;> first | exact memSet_wf _ v h | exact h

/-- A canonical global memory stays so under a store. -/
theorem State.putPlace_gmem_wf {u : State} (h : memWf u.gmem = true) (p : Place) (v : Byte) :
    memWf (u.putPlace p v).gmem = true := by
  cases p <;> first | exact memSet_wf _ v h | exact h

/-- Everything two stores do, the second over the first. -/
theorem State.putPlace_putPlace_stored {u : State} (h : memWf u.mem = true) (hg : memWf u.gmem = true) (p q : Place)
    (v w : Byte) : Stored [(p, v), (q, w)] u ((u.putPlace p v).putPlace q w) :=
  (State.putPlace_stored h hg p v).append
    (State.putPlace_stored (State.putPlace_mem_wf h p v) (State.putPlace_gmem_wf hg p v) q w)
    (State.putPlace_params u p v) (State.putPlace_fresh u p v)

/-- Everything `MemWrite(addr, 2, v)` does. -/
theorem State.write16_stored {u : State} (h : memWf u.mem = true) (hg : memWf u.gmem = true) (addr v : Word) :
    Stored (wordStores u addr v) u (u.write16 addr v) :=
  State.putPlace_putPlace_stored h hg _ _ v.high v.low

/-- Everything `GMemWrite(ea, 1, v)` does. -/
theorem State.globalWrite8_stored {u : State} (h : memWf u.mem = true) (hg : memWf u.gmem = true) (ea : Word)
    (v : Byte) : Stored [(u.globalPlaceAt ea 0, v)] u (u.globalWrite8 ea v) :=
  State.putPlace_stored h hg _ v

/-- Everything `GMemWrite(ea, 2, v)` does. -/
theorem State.globalWrite16_stored {u : State} (h : memWf u.mem = true) (hg : memWf u.gmem = true) (ea v : Word) :
    Stored [(u.globalPlaceAt ea 0, v.high), (u.globalPlaceAt ea 1, v.low)] u (u.globalWrite16 ea v) :=
  State.putPlace_putPlace_stored h hg _ _ v.high v.low

/-! ### The global memory under logical stores -/

@[simp] theorem State.write8_gmem (u : State) (addr : Word) (v : Byte) : (u.write8 addr v).gmem = u.gmem := by
  unfold State.write8 State.place placeOf; split <;> rfl

@[simp] theorem State.write16_gmem (u : State) (addr v : Word) : (u.write16 addr v).gmem = u.gmem := by
  have key : ∀ (t : State) (a : Word) (b : Byte), (t.putPlace (u.place a) b).gmem = t.gmem := by
    intro t a b
    unfold State.place placeOf; split <;> rfl
  rw [State.write16, key, key]

@[simp] theorem State.push8_gmem (u : State) (v : Byte) : (u.push8 v).gmem = u.gmem := by simp [State.push8]

@[simp] theorem State.push16_gmem (u : State) (v : Word) : (u.push16 v).gmem = u.gmem := by simp [State.push16]

/-! ### The invariant -/

/-- The invariant speaks of the two memories, GPAGE and the platform alone. -/
theorem State.Inv.congr {s t : State} (h : s.Inv) (hm : t.mem = s.mem) (hg : t.gmem = s.gmem)
    (hp : t.gpage = s.gpage) (hq : t.params = s.params) : t.Inv :=
  ⟨hm ▸ h.mem, hg ▸ h.gmem, by rw [hp, hq]; exact h.gpage⟩

theorem State.write8_inv {u : State} (h : u.Inv) (addr : Word) (v : Byte) : (u.write8 addr v).Inv :=
  State.putPlace_inv h _ v

theorem State.write16_inv {u : State} (h : u.Inv) (addr v : Word) : (u.write16 addr v).Inv :=
  State.putPlace_inv (State.putPlace_inv h _ _) _ _

theorem State.write32_inv {u : State} (h : u.Inv) (addr : Word) (v : BitVec 32) : (u.write32 addr v).Inv :=
  State.write16_inv (State.write16_inv h _ _) _ _

theorem State.globalWrite8_inv {u : State} (h : u.Inv) (ea : Word) (v : Byte) : (u.globalWrite8 ea v).Inv :=
  State.putPlace_inv h _ v

theorem State.globalWrite16_inv {u : State} (h : u.Inv) (ea v : Word) : (u.globalWrite16 ea v).Inv :=
  State.putPlace_inv (State.putPlace_inv h _ _) _ _

theorem State.push8_inv {u : State} (h : u.Inv) (v : Byte) : (u.push8 v).Inv :=
  State.write8_inv (u := { u with sp := u.sp - 1 }) ⟨h.mem, h.gmem, h.gpage⟩ _ v

theorem State.push16_inv {u : State} (h : u.Inv) (v : Word) : (u.push16 v).Inv :=
  State.write16_inv (u := { u with sp := u.sp - 2 }) ⟨h.mem, h.gmem, h.gpage⟩ _ v

theorem State.pushCcr_inv {u : State} (h : u.Inv) : u.pushCcr.Inv := by
  unfold State.pushCcr
  split
  · exact State.push8_inv h _
  · exact State.push16_inv h _

/-- Stacking a frame keeps the invariant. -/
theorem State.pushFrame_inv {u : State} (h : u.Inv) (rtn : Word) : (u.pushFrame rtn).Inv :=
  State.pushCcr_inv
    (State.push16_inv (State.push16_inv (State.push16_inv (State.push16_inv h rtn) u.y) u.x) (wordOf u.b u.a))

/-- Taking an exception keeps the invariant. -/
theorem State.enter_inv {u : State} (h : u.Inv) (vec : Word) (isXirq : Bool) (rtn : Word) :
    (u.enter vec isXirq rtn).Inv :=
  (State.pushFrame_inv (h.congr (t := u.touchedVector vec) (by simp) (by simp) (by simp) (by simp)) rtn).congr
    rfl rfl rfl rfl

/-! ### The frame of an exception -/

@[simp] theorem State.pushCcr_params (u : State) : u.pushCcr.params = u.params := by
  unfold State.pushCcr; split <;> simp

/-- SP falls by the size of the frame (R668). -/
theorem State.pushFrame_sp (u : State) (rtn : Word) : (u.pushFrame rtn).sp = u.sp - frameSize u.params.variant := by
  unfold State.pushFrame State.pushCcr
  simp only [State.push16_params]
  cases u.params.variant <;>
    simp only [State.push16_sp, State.push8_sp, frameSize] <;> bv_omega

end Sys2Proof.Machine
end

