-- ==== Sys2Proof/Laws/Operands.lean ====
section
/-! SUPPORT. The side effect of an operand: it changes a base register, and the devices where it reads one, and
nothing else (R93, R132, R146). -/

namespace Sys2Proof.Machine

@[simp] theorem xbAfter_a (xb : Xb) (s : State) : (xbAfter xb s).a = s.a := by
  cases xb <;> try simp [xbAfter]
  rename_i r _ _; cases r <;> rfl

@[simp] theorem xbAfter_b (xb : Xb) (s : State) : (xbAfter xb s).b = s.b := by
  cases xb <;> try simp [xbAfter]
  rename_i r _ _; cases r <;> rfl

@[simp] theorem xbAfter_pc (xb : Xb) (s : State) : (xbAfter xb s).pc = s.pc := by
  cases xb <;> simp [xbAfter]

@[simp] theorem xbAfter_ccr (xb : Xb) (s : State) : (xbAfter xb s).ccr = s.ccr := by
  cases xb <;> simp [xbAfter]

@[simp] theorem xbAfter_ccrh (xb : Xb) (s : State) : (xbAfter xb s).ccrh = s.ccrh := by
  cases xb <;> simp [xbAfter]

@[simp] theorem xbAfter_ppage (xb : Xb) (s : State) : (xbAfter xb s).ppage = s.ppage := by
  cases xb <;> simp [xbAfter]

@[simp] theorem xbAfter_gpage (xb : Xb) (s : State) : (xbAfter xb s).gpage = s.gpage := by
  cases xb <;> simp [xbAfter]

@[simp] theorem xbAfter_tmp1 (xb : Xb) (s : State) : (xbAfter xb s).tmp1 = s.tmp1 := by
  cases xb <;> simp [xbAfter]

@[simp] theorem xbAfter_tmp2 (xb : Xb) (s : State) : (xbAfter xb s).tmp2 = s.tmp2 := by
  cases xb <;> simp [xbAfter]

@[simp] theorem xbAfter_tmp3 (xb : Xb) (s : State) : (xbAfter xb s).tmp3 = s.tmp3 := by
  cases xb <;> simp [xbAfter]

@[simp] theorem xbAfter_mem (xb : Xb) (s : State) : (xbAfter xb s).mem = s.mem := by
  cases xb <;> simp [xbAfter]

@[simp] theorem xbAfter_gmem (xb : Xb) (s : State) : (xbAfter xb s).gmem = s.gmem := by
  cases xb <;> simp [xbAfter]

@[simp] theorem xbAfter_runState (xb : Xb) (s : State) : (xbAfter xb s).runState = s.runState := by
  cases xb <;> simp [xbAfter]

@[simp] theorem xbAfter_pending (xb : Xb) (s : State) : (xbAfter xb s).pending = s.pending := by
  cases xb <;> simp [xbAfter]

@[simp] theorem xbAfter_queue (xb : Xb) (s : State) : (xbAfter xb s).queue = s.queue := by
  cases xb <;> simp [xbAfter]

@[simp] theorem xbAfter_refilled (xb : Xb) (s : State) : (xbAfter xb s).refilled = s.refilled := by
  cases xb <;> simp [xbAfter]

@[simp] theorem xbAfter_arrival (xb : Xb) (s : State) : (xbAfter xb s).arrival = s.arrival := by
  cases xb <;> simp [xbAfter]

@[simp] theorem xbAfter_wavFrames (xb : Xb) (s : State) : (xbAfter xb s).wavFrames = s.wavFrames := by
  cases xb <;> simp [xbAfter]

@[simp] theorem xbAfter_fresh (xb : Xb) (s : State) : (xbAfter xb s).fresh = s.fresh := by
  cases xb <;> simp [xbAfter]

@[simp] theorem xbAfter_params (xb : Xb) (s : State) : (xbAfter xb s).params = s.params := by
  cases xb <;> simp [xbAfter]

@[simp] theorem eaAfter_a (ea : Ea) (s : State) : (eaAfter ea s).a = s.a := by
  cases ea <;> simp [eaAfter]

@[simp] theorem eaAfter_b (ea : Ea) (s : State) : (eaAfter ea s).b = s.b := by
  cases ea <;> simp [eaAfter]

@[simp] theorem eaAfter_pc (ea : Ea) (s : State) : (eaAfter ea s).pc = s.pc := by
  cases ea <;> simp [eaAfter]

@[simp] theorem eaAfter_ccr (ea : Ea) (s : State) : (eaAfter ea s).ccr = s.ccr := by
  cases ea <;> simp [eaAfter]

@[simp] theorem eaAfter_ccrh (ea : Ea) (s : State) : (eaAfter ea s).ccrh = s.ccrh := by
  cases ea <;> simp [eaAfter]

@[simp] theorem eaAfter_ppage (ea : Ea) (s : State) : (eaAfter ea s).ppage = s.ppage := by
  cases ea <;> simp [eaAfter]

@[simp] theorem eaAfter_gpage (ea : Ea) (s : State) : (eaAfter ea s).gpage = s.gpage := by
  cases ea <;> simp [eaAfter]

@[simp] theorem eaAfter_tmp1 (ea : Ea) (s : State) : (eaAfter ea s).tmp1 = s.tmp1 := by
  cases ea <;> simp [eaAfter]

@[simp] theorem eaAfter_tmp2 (ea : Ea) (s : State) : (eaAfter ea s).tmp2 = s.tmp2 := by
  cases ea <;> simp [eaAfter]

@[simp] theorem eaAfter_tmp3 (ea : Ea) (s : State) : (eaAfter ea s).tmp3 = s.tmp3 := by
  cases ea <;> simp [eaAfter]

@[simp] theorem eaAfter_mem (ea : Ea) (s : State) : (eaAfter ea s).mem = s.mem := by
  cases ea <;> simp [eaAfter]

@[simp] theorem eaAfter_gmem (ea : Ea) (s : State) : (eaAfter ea s).gmem = s.gmem := by
  cases ea <;> simp [eaAfter]

@[simp] theorem eaAfter_runState (ea : Ea) (s : State) : (eaAfter ea s).runState = s.runState := by
  cases ea <;> simp [eaAfter]

@[simp] theorem eaAfter_pending (ea : Ea) (s : State) : (eaAfter ea s).pending = s.pending := by
  cases ea <;> simp [eaAfter]

@[simp] theorem eaAfter_queue (ea : Ea) (s : State) : (eaAfter ea s).queue = s.queue := by
  cases ea <;> simp [eaAfter]

@[simp] theorem eaAfter_refilled (ea : Ea) (s : State) : (eaAfter ea s).refilled = s.refilled := by
  cases ea <;> simp [eaAfter]

@[simp] theorem eaAfter_arrival (ea : Ea) (s : State) : (eaAfter ea s).arrival = s.arrival := by
  cases ea <;> simp [eaAfter]

@[simp] theorem eaAfter_wavFrames (ea : Ea) (s : State) : (eaAfter ea s).wavFrames = s.wavFrames := by
  cases ea <;> simp [eaAfter]

@[simp] theorem eaAfter_fresh (ea : Ea) (s : State) : (eaAfter ea s).fresh = s.fresh := by
  cases ea <;> simp [eaAfter]

@[simp] theorem eaAfter_params (ea : Ea) (s : State) : (eaAfter ea s).params = s.params := by
  cases ea <;> simp [eaAfter]

@[simp] theorem afterMemByte_a (ea : Ea) (s : State) : (afterMemByte ea s).a = s.a := by
  simp [afterMemByte]

@[simp] theorem afterMemByte_b (ea : Ea) (s : State) : (afterMemByte ea s).b = s.b := by
  simp [afterMemByte]

@[simp] theorem afterMemByte_pc (ea : Ea) (s : State) : (afterMemByte ea s).pc = s.pc := by
  simp [afterMemByte]

@[simp] theorem afterMemByte_ccr (ea : Ea) (s : State) : (afterMemByte ea s).ccr = s.ccr := by
  simp [afterMemByte]

@[simp] theorem afterMemByte_ccrh (ea : Ea) (s : State) : (afterMemByte ea s).ccrh = s.ccrh := by
  simp [afterMemByte]

@[simp] theorem afterMemByte_ppage (ea : Ea) (s : State) : (afterMemByte ea s).ppage = s.ppage := by
  simp [afterMemByte]

@[simp] theorem afterMemByte_gpage (ea : Ea) (s : State) : (afterMemByte ea s).gpage = s.gpage := by
  simp [afterMemByte]

@[simp] theorem afterMemByte_tmp1 (ea : Ea) (s : State) : (afterMemByte ea s).tmp1 = s.tmp1 := by
  simp [afterMemByte]

@[simp] theorem afterMemByte_tmp2 (ea : Ea) (s : State) : (afterMemByte ea s).tmp2 = s.tmp2 := by
  simp [afterMemByte]

@[simp] theorem afterMemByte_tmp3 (ea : Ea) (s : State) : (afterMemByte ea s).tmp3 = s.tmp3 := by
  simp [afterMemByte]

@[simp] theorem afterMemByte_mem (ea : Ea) (s : State) : (afterMemByte ea s).mem = s.mem := by
  simp [afterMemByte]

@[simp] theorem afterMemByte_gmem (ea : Ea) (s : State) : (afterMemByte ea s).gmem = s.gmem := by
  simp [afterMemByte]

@[simp] theorem afterMemByte_runState (ea : Ea) (s : State) : (afterMemByte ea s).runState = s.runState := by
  simp [afterMemByte]

@[simp] theorem afterMemByte_pending (ea : Ea) (s : State) : (afterMemByte ea s).pending = s.pending := by
  simp [afterMemByte]

@[simp] theorem afterMemByte_queue (ea : Ea) (s : State) : (afterMemByte ea s).queue = s.queue := by
  simp [afterMemByte]

@[simp] theorem afterMemByte_refilled (ea : Ea) (s : State) : (afterMemByte ea s).refilled = s.refilled := by
  simp [afterMemByte]

@[simp] theorem afterMemByte_arrival (ea : Ea) (s : State) : (afterMemByte ea s).arrival = s.arrival := by
  simp [afterMemByte]

@[simp] theorem afterMemByte_wavFrames (ea : Ea) (s : State) : (afterMemByte ea s).wavFrames = s.wavFrames := by
  simp [afterMemByte]

@[simp] theorem afterMemByte_fresh (ea : Ea) (s : State) : (afterMemByte ea s).fresh = s.fresh := by
  simp [afterMemByte]

@[simp] theorem afterMemByte_params (ea : Ea) (s : State) : (afterMemByte ea s).params = s.params := by
  simp [afterMemByte]

@[simp] theorem afterMemWord_a (ea : Ea) (s : State) : (afterMemWord ea s).a = s.a := by
  simp [afterMemWord]

@[simp] theorem afterMemWord_b (ea : Ea) (s : State) : (afterMemWord ea s).b = s.b := by
  simp [afterMemWord]

@[simp] theorem afterMemWord_pc (ea : Ea) (s : State) : (afterMemWord ea s).pc = s.pc := by
  simp [afterMemWord]

@[simp] theorem afterMemWord_ccr (ea : Ea) (s : State) : (afterMemWord ea s).ccr = s.ccr := by
  simp [afterMemWord]

@[simp] theorem afterMemWord_ccrh (ea : Ea) (s : State) : (afterMemWord ea s).ccrh = s.ccrh := by
  simp [afterMemWord]

@[simp] theorem afterMemWord_ppage (ea : Ea) (s : State) : (afterMemWord ea s).ppage = s.ppage := by
  simp [afterMemWord]

@[simp] theorem afterMemWord_gpage (ea : Ea) (s : State) : (afterMemWord ea s).gpage = s.gpage := by
  simp [afterMemWord]

@[simp] theorem afterMemWord_tmp1 (ea : Ea) (s : State) : (afterMemWord ea s).tmp1 = s.tmp1 := by
  simp [afterMemWord]

@[simp] theorem afterMemWord_tmp2 (ea : Ea) (s : State) : (afterMemWord ea s).tmp2 = s.tmp2 := by
  simp [afterMemWord]

@[simp] theorem afterMemWord_tmp3 (ea : Ea) (s : State) : (afterMemWord ea s).tmp3 = s.tmp3 := by
  simp [afterMemWord]

@[simp] theorem afterMemWord_mem (ea : Ea) (s : State) : (afterMemWord ea s).mem = s.mem := by
  simp [afterMemWord]

@[simp] theorem afterMemWord_gmem (ea : Ea) (s : State) : (afterMemWord ea s).gmem = s.gmem := by
  simp [afterMemWord]

@[simp] theorem afterMemWord_runState (ea : Ea) (s : State) : (afterMemWord ea s).runState = s.runState := by
  simp [afterMemWord]

@[simp] theorem afterMemWord_pending (ea : Ea) (s : State) : (afterMemWord ea s).pending = s.pending := by
  simp [afterMemWord]

@[simp] theorem afterMemWord_queue (ea : Ea) (s : State) : (afterMemWord ea s).queue = s.queue := by
  simp [afterMemWord]

@[simp] theorem afterMemWord_refilled (ea : Ea) (s : State) : (afterMemWord ea s).refilled = s.refilled := by
  simp [afterMemWord]

@[simp] theorem afterMemWord_arrival (ea : Ea) (s : State) : (afterMemWord ea s).arrival = s.arrival := by
  simp [afterMemWord]

@[simp] theorem afterMemWord_wavFrames (ea : Ea) (s : State) : (afterMemWord ea s).wavFrames = s.wavFrames := by
  simp [afterMemWord]

@[simp] theorem afterMemWord_fresh (ea : Ea) (s : State) : (afterMemWord ea s).fresh = s.fresh := by
  simp [afterMemWord]

@[simp] theorem afterMemWord_params (ea : Ea) (s : State) : (afterMemWord ea s).params = s.params := by
  simp [afterMemWord]

@[simp] theorem afterGlobalByte_a (ea : Ea) (s : State) : (afterGlobalByte ea s).a = s.a := by
  simp [afterGlobalByte]

@[simp] theorem afterGlobalByte_b (ea : Ea) (s : State) : (afterGlobalByte ea s).b = s.b := by
  simp [afterGlobalByte]

@[simp] theorem afterGlobalByte_pc (ea : Ea) (s : State) : (afterGlobalByte ea s).pc = s.pc := by
  simp [afterGlobalByte]

@[simp] theorem afterGlobalByte_ccr (ea : Ea) (s : State) : (afterGlobalByte ea s).ccr = s.ccr := by
  simp [afterGlobalByte]

@[simp] theorem afterGlobalByte_ccrh (ea : Ea) (s : State) : (afterGlobalByte ea s).ccrh = s.ccrh := by
  simp [afterGlobalByte]

@[simp] theorem afterGlobalByte_ppage (ea : Ea) (s : State) : (afterGlobalByte ea s).ppage = s.ppage := by
  simp [afterGlobalByte]

@[simp] theorem afterGlobalByte_gpage (ea : Ea) (s : State) : (afterGlobalByte ea s).gpage = s.gpage := by
  simp [afterGlobalByte]

@[simp] theorem afterGlobalByte_tmp1 (ea : Ea) (s : State) : (afterGlobalByte ea s).tmp1 = s.tmp1 := by
  simp [afterGlobalByte]

@[simp] theorem afterGlobalByte_tmp2 (ea : Ea) (s : State) : (afterGlobalByte ea s).tmp2 = s.tmp2 := by
  simp [afterGlobalByte]

@[simp] theorem afterGlobalByte_tmp3 (ea : Ea) (s : State) : (afterGlobalByte ea s).tmp3 = s.tmp3 := by
  simp [afterGlobalByte]

@[simp] theorem afterGlobalByte_mem (ea : Ea) (s : State) : (afterGlobalByte ea s).mem = s.mem := by
  simp [afterGlobalByte]

@[simp] theorem afterGlobalByte_gmem (ea : Ea) (s : State) : (afterGlobalByte ea s).gmem = s.gmem := by
  simp [afterGlobalByte]

@[simp] theorem afterGlobalByte_runState (ea : Ea) (s : State) : (afterGlobalByte ea s).runState = s.runState := by
  simp [afterGlobalByte]

@[simp] theorem afterGlobalByte_pending (ea : Ea) (s : State) : (afterGlobalByte ea s).pending = s.pending := by
  simp [afterGlobalByte]

@[simp] theorem afterGlobalByte_queue (ea : Ea) (s : State) : (afterGlobalByte ea s).queue = s.queue := by
  simp [afterGlobalByte]

@[simp] theorem afterGlobalByte_refilled (ea : Ea) (s : State) : (afterGlobalByte ea s).refilled = s.refilled := by
  simp [afterGlobalByte]

@[simp] theorem afterGlobalByte_arrival (ea : Ea) (s : State) : (afterGlobalByte ea s).arrival = s.arrival := by
  simp [afterGlobalByte]

@[simp] theorem afterGlobalByte_wavFrames (ea : Ea) (s : State) : (afterGlobalByte ea s).wavFrames = s.wavFrames := by
  simp [afterGlobalByte]

@[simp] theorem afterGlobalByte_fresh (ea : Ea) (s : State) : (afterGlobalByte ea s).fresh = s.fresh := by
  simp [afterGlobalByte]

@[simp] theorem afterGlobalByte_params (ea : Ea) (s : State) : (afterGlobalByte ea s).params = s.params := by
  simp [afterGlobalByte]

@[simp] theorem afterGlobalWord_a (ea : Ea) (s : State) : (afterGlobalWord ea s).a = s.a := by
  simp [afterGlobalWord]

@[simp] theorem afterGlobalWord_b (ea : Ea) (s : State) : (afterGlobalWord ea s).b = s.b := by
  simp [afterGlobalWord]

@[simp] theorem afterGlobalWord_pc (ea : Ea) (s : State) : (afterGlobalWord ea s).pc = s.pc := by
  simp [afterGlobalWord]

@[simp] theorem afterGlobalWord_ccr (ea : Ea) (s : State) : (afterGlobalWord ea s).ccr = s.ccr := by
  simp [afterGlobalWord]

@[simp] theorem afterGlobalWord_ccrh (ea : Ea) (s : State) : (afterGlobalWord ea s).ccrh = s.ccrh := by
  simp [afterGlobalWord]

@[simp] theorem afterGlobalWord_ppage (ea : Ea) (s : State) : (afterGlobalWord ea s).ppage = s.ppage := by
  simp [afterGlobalWord]

@[simp] theorem afterGlobalWord_gpage (ea : Ea) (s : State) : (afterGlobalWord ea s).gpage = s.gpage := by
  simp [afterGlobalWord]

@[simp] theorem afterGlobalWord_tmp1 (ea : Ea) (s : State) : (afterGlobalWord ea s).tmp1 = s.tmp1 := by
  simp [afterGlobalWord]

@[simp] theorem afterGlobalWord_tmp2 (ea : Ea) (s : State) : (afterGlobalWord ea s).tmp2 = s.tmp2 := by
  simp [afterGlobalWord]

@[simp] theorem afterGlobalWord_tmp3 (ea : Ea) (s : State) : (afterGlobalWord ea s).tmp3 = s.tmp3 := by
  simp [afterGlobalWord]

@[simp] theorem afterGlobalWord_mem (ea : Ea) (s : State) : (afterGlobalWord ea s).mem = s.mem := by
  simp [afterGlobalWord]

@[simp] theorem afterGlobalWord_gmem (ea : Ea) (s : State) : (afterGlobalWord ea s).gmem = s.gmem := by
  simp [afterGlobalWord]

@[simp] theorem afterGlobalWord_runState (ea : Ea) (s : State) : (afterGlobalWord ea s).runState = s.runState := by
  simp [afterGlobalWord]

@[simp] theorem afterGlobalWord_pending (ea : Ea) (s : State) : (afterGlobalWord ea s).pending = s.pending := by
  simp [afterGlobalWord]

@[simp] theorem afterGlobalWord_queue (ea : Ea) (s : State) : (afterGlobalWord ea s).queue = s.queue := by
  simp [afterGlobalWord]

@[simp] theorem afterGlobalWord_refilled (ea : Ea) (s : State) : (afterGlobalWord ea s).refilled = s.refilled := by
  simp [afterGlobalWord]

@[simp] theorem afterGlobalWord_arrival (ea : Ea) (s : State) : (afterGlobalWord ea s).arrival = s.arrival := by
  simp [afterGlobalWord]

@[simp] theorem afterGlobalWord_wavFrames (ea : Ea) (s : State) : (afterGlobalWord ea s).wavFrames = s.wavFrames := by
  simp [afterGlobalWord]

@[simp] theorem afterGlobalWord_fresh (ea : Ea) (s : State) : (afterGlobalWord ea s).fresh = s.fresh := by
  simp [afterGlobalWord]

@[simp] theorem afterGlobalWord_params (ea : Ea) (s : State) : (afterGlobalWord ea s).params = s.params := by
  simp [afterGlobalWord]

@[simp] theorem src8After_a (src : Src8) (s : State) : (src8After src s).a = s.a := by
  cases src <;> simp [src8After]

@[simp] theorem src8After_b (src : Src8) (s : State) : (src8After src s).b = s.b := by
  cases src <;> simp [src8After]

@[simp] theorem src8After_pc (src : Src8) (s : State) : (src8After src s).pc = s.pc := by
  cases src <;> simp [src8After]

@[simp] theorem src8After_ccr (src : Src8) (s : State) : (src8After src s).ccr = s.ccr := by
  cases src <;> simp [src8After]

@[simp] theorem src8After_ccrh (src : Src8) (s : State) : (src8After src s).ccrh = s.ccrh := by
  cases src <;> simp [src8After]

@[simp] theorem src8After_ppage (src : Src8) (s : State) : (src8After src s).ppage = s.ppage := by
  cases src <;> simp [src8After]

@[simp] theorem src8After_gpage (src : Src8) (s : State) : (src8After src s).gpage = s.gpage := by
  cases src <;> simp [src8After]

@[simp] theorem src8After_tmp1 (src : Src8) (s : State) : (src8After src s).tmp1 = s.tmp1 := by
  cases src <;> simp [src8After]

@[simp] theorem src8After_tmp2 (src : Src8) (s : State) : (src8After src s).tmp2 = s.tmp2 := by
  cases src <;> simp [src8After]

@[simp] theorem src8After_tmp3 (src : Src8) (s : State) : (src8After src s).tmp3 = s.tmp3 := by
  cases src <;> simp [src8After]

@[simp] theorem src8After_mem (src : Src8) (s : State) : (src8After src s).mem = s.mem := by
  cases src <;> simp [src8After]

@[simp] theorem src8After_gmem (src : Src8) (s : State) : (src8After src s).gmem = s.gmem := by
  cases src <;> simp [src8After]

@[simp] theorem src8After_runState (src : Src8) (s : State) : (src8After src s).runState = s.runState := by
  cases src <;> simp [src8After]

@[simp] theorem src8After_pending (src : Src8) (s : State) : (src8After src s).pending = s.pending := by
  cases src <;> simp [src8After]

@[simp] theorem src8After_queue (src : Src8) (s : State) : (src8After src s).queue = s.queue := by
  cases src <;> simp [src8After]

@[simp] theorem src8After_refilled (src : Src8) (s : State) : (src8After src s).refilled = s.refilled := by
  cases src <;> simp [src8After]

@[simp] theorem src8After_arrival (src : Src8) (s : State) : (src8After src s).arrival = s.arrival := by
  cases src <;> simp [src8After]

@[simp] theorem src8After_wavFrames (src : Src8) (s : State) : (src8After src s).wavFrames = s.wavFrames := by
  cases src <;> simp [src8After]

@[simp] theorem src8After_fresh (src : Src8) (s : State) : (src8After src s).fresh = s.fresh := by
  cases src <;> simp [src8After]

@[simp] theorem src8After_params (src : Src8) (s : State) : (src8After src s).params = s.params := by
  cases src <;> simp [src8After]

@[simp] theorem src16After_a (src : Src16) (s : State) : (src16After src s).a = s.a := by
  cases src <;> simp [src16After]

@[simp] theorem src16After_b (src : Src16) (s : State) : (src16After src s).b = s.b := by
  cases src <;> simp [src16After]

@[simp] theorem src16After_pc (src : Src16) (s : State) : (src16After src s).pc = s.pc := by
  cases src <;> simp [src16After]

@[simp] theorem src16After_ccr (src : Src16) (s : State) : (src16After src s).ccr = s.ccr := by
  cases src <;> simp [src16After]

@[simp] theorem src16After_ccrh (src : Src16) (s : State) : (src16After src s).ccrh = s.ccrh := by
  cases src <;> simp [src16After]

@[simp] theorem src16After_ppage (src : Src16) (s : State) : (src16After src s).ppage = s.ppage := by
  cases src <;> simp [src16After]

@[simp] theorem src16After_gpage (src : Src16) (s : State) : (src16After src s).gpage = s.gpage := by
  cases src <;> simp [src16After]

@[simp] theorem src16After_tmp1 (src : Src16) (s : State) : (src16After src s).tmp1 = s.tmp1 := by
  cases src <;> simp [src16After]

@[simp] theorem src16After_tmp2 (src : Src16) (s : State) : (src16After src s).tmp2 = s.tmp2 := by
  cases src <;> simp [src16After]

@[simp] theorem src16After_tmp3 (src : Src16) (s : State) : (src16After src s).tmp3 = s.tmp3 := by
  cases src <;> simp [src16After]

@[simp] theorem src16After_mem (src : Src16) (s : State) : (src16After src s).mem = s.mem := by
  cases src <;> simp [src16After]

@[simp] theorem src16After_gmem (src : Src16) (s : State) : (src16After src s).gmem = s.gmem := by
  cases src <;> simp [src16After]

@[simp] theorem src16After_runState (src : Src16) (s : State) : (src16After src s).runState = s.runState := by
  cases src <;> simp [src16After]

@[simp] theorem src16After_pending (src : Src16) (s : State) : (src16After src s).pending = s.pending := by
  cases src <;> simp [src16After]

@[simp] theorem src16After_queue (src : Src16) (s : State) : (src16After src s).queue = s.queue := by
  cases src <;> simp [src16After]

@[simp] theorem src16After_refilled (src : Src16) (s : State) : (src16After src s).refilled = s.refilled := by
  cases src <;> simp [src16After]

@[simp] theorem src16After_arrival (src : Src16) (s : State) : (src16After src s).arrival = s.arrival := by
  cases src <;> simp [src16After]

@[simp] theorem src16After_wavFrames (src : Src16) (s : State) : (src16After src s).wavFrames = s.wavFrames := by
  cases src <;> simp [src16After]

@[simp] theorem src16After_fresh (src : Src16) (s : State) : (src16After src s).fresh = s.fresh := by
  cases src <;> simp [src16After]

@[simp] theorem src16After_params (src : Src16) (s : State) : (src16After src s).params = s.params := by
  cases src <;> simp [src16After]

/-- Where a logical access goes is not moved by an operand. -/
theorem eaAfter_place (ea : Ea) (s : State) (addr : Word) : (eaAfter ea s).place addr = s.place addr :=
  State.place_congr (by simp) (by simp) addr

theorem afterMemByte_place (ea : Ea) (s : State) (addr : Word) : (afterMemByte ea s).place addr = s.place addr :=
  State.place_congr (by simp) (by simp) addr

theorem afterMemWord_place (ea : Ea) (s : State) (addr : Word) : (afterMemWord ea s).place addr = s.place addr :=
  State.place_congr (by simp) (by simp) addr

/-- Memory is as before once a direct, extended or indexed operand without a pointer has its address. -/
theorem eaAfter_sameMemory {ea : Ea} (s : State) (h : ∀ xb, ea = .idx xb → xb.isIndirect = false) :
    SameMemory s (eaAfter ea s) := by
  refine ⟨by simp, by simp, ?_, by simp, by simp, by simp, by simp⟩
  cases ea with
  | dir _ | ext _ => rfl
  | idx xb =>
    cases xb with
    | auto r _ _ => cases r <;> rfl
    | const5 _ _ | const9 _ _ | const16 _ _ | acc _ _ => rfl
    | indirect16 _ _ | indirectD _ => exact absurd (h _ rfl) (by simp [Xb.isIndirect])

end Sys2Proof.Machine
end

