-- ==== Sys2Proof/Laws/Abandon.lean ====
section
/-! SUPPORT. What an abandoned instruction leaves (R662): each flag and register with a value it had or would have had,
and memory after a first part of the stores. -/

namespace Sys2Proof.Machine

/-- A choice is one of the values. -/
theorem chosen_mem {α : Type} (n : Nat) (first : α) (others : List α) :
    chosen n first others ∈ first :: others := by
  have h : n % (others.length + 1) < (first :: others).length := by
    simpa using Nat.mod_lt n (Nat.succ_pos others.length)
  simp only [chosen, List.getD_eq_getElem?_getD, List.getElem?_eq_getElem h, Option.getD_some]
  exact List.getElem_mem h

/-- A choice among equal values is that value. -/
theorem chosen_eq {α : Type} {n : Nat} {v first : α} {others : List α} (h : ∀ w ∈ first :: others, w = v) :
    chosen n first others = v :=
  h _ (chosen_mem n first others)

/-- Each flag of partly changed condition codes is that of one of the bytes. -/
theorem flagOf_partlyFlagged (first : Byte) (others : List Byte) (made : Nat → Nat) (f : Flag) :
    flagOf (partlyFlagged first others made) f ∈ (first :: others).map (flagOf · f) := by
  have key : ∀ (fs : List Flag) (k : Byte), flagOf k f ∈ (first :: others).map (flagOf · f) →
      flagOf (fs.foldl (fun k f =>
        withFlag k f (chosen (made (16 + f.bit)) (flagOf first f) (others.map (flagOf · f)))) k) f ∈
          (first :: others).map (flagOf · f) := by
    intro fs
    induction fs with
    | nil => intro k hk; exact hk
    | cons g rest ih =>
      intro k hk
      refine ih _ ?_
      rw [flagOf_withFlag]
      by_cases hg : g = f
      · subst hg
        simpa using chosen_mem (made (16 + g.bit)) (flagOf first g) (others.map (flagOf · g))
      · simpa [hg] using hk
  exact key _ _ List.mem_cons_self

/-- What lies in memory is what one of the states between the stores holds: a first part of the stores is made. -/
theorem State.cutAt_stored (s before last done : State) (between : List State) (postbytes : List Xb) :
    ∃ m ∈ before :: between ++ [last],
      (s.cutAt before last done between postbytes).mem = m.mem ∧
        (s.cutAt before last done between postbytes).gmem = m.gmem ∧
        (s.cutAt before last done between postbytes).ppage = m.ppage ∧
        (s.cutAt before last done between postbytes).gpage = m.gpage :=
  ⟨_, chosen_mem (Config.cutShort last.fresh 6) before (between ++ [last]), rfl, rfl, rfl, rfl⟩

/-- Pushing keeps the parameters and the invariant, at every push of a frame. -/
theorem pushStages_inv {s m : State} (h : s.Inv) (rtn : Word) (hm : m ∈ pushStages s rtn) :
    m.Inv ∧ m.params = s.params := by
  have h1 := State.push16_inv h rtn
  have h2 := State.push16_inv h1 s.y
  have h3 := State.push16_inv h2 s.x
  simp only [pushStages, List.mem_cons, List.not_mem_nil, or_false] at hm
  rcases hm with rfl | rfl | rfl | rfl
  · exact ⟨h1, by simp⟩
  · exact ⟨h2, by simp⟩
  · exact ⟨h3, by simp⟩
  · exact ⟨State.push16_inv h3 _, by simp⟩

/-- The last push of a frame comes over the last of its stages. -/
theorem pushFrame_of_pushStages (s : State) (rtn : Word) :
    (pushStages s rtn).getLast?.map State.pushCcr = some (s.pushFrame rtn) := rfl

/-- The states on the way through CALL meet the invariant. -/
theorem callStages_inv {s m : State} (h : s.Inv) (op : CallOp) (hm : m ∈ callStages op s) :
    m.Inv ∧ m.params = s.params := by
  obtain ⟨u, page, hu, hp, he⟩ : ∃ (u : State) (page : Byte), u.Inv ∧ u.params = s.params ∧
      callStages op s = [{ u with ppage := page }, u.push16 u.pc, { u.push16 u.pc with ppage := page },
        (u.push16 u.pc).push8 (u.push16 u.pc).ppage] := by
    cases op with
    | direct ea pg => exact ⟨_, _, h.congr (by simp) (by simp) (by simp) (by simp), by simp, rfl⟩
    | indirect xb => exact ⟨_, _, h.congr (by simp) (by simp) (by simp) (by simp), by simp, rfl⟩
  have ht := State.push16_inv hu u.pc
  rw [he] at hm
  simp only [List.mem_cons, List.not_mem_nil, or_false] at hm
  rcases hm with rfl | rfl | rfl | rfl
  · exact ⟨hu.congr rfl rfl rfl rfl, hp⟩
  · exact ⟨ht, by simp [hp]⟩
  · exact ⟨ht.congr rfl rfl rfl rfl, by simp [hp]⟩
  · exact ⟨State.push8_inv ht _, by simp [hp]⟩

/-- The last push of CALL leaves the memory that CALL leaves. -/
theorem call_of_callStages (op : CallOp) (s : State) :
    (callStages op s).getLast?.map State.mem = some (call op s).mem := by
  cases op with
  | direct ea pg => rfl
  | indirect xb => rfl

/-- The second store of EMACS comes over its first. -/
theorem emacs_of_emacsStages (hhll : Word) (s : State) :
    (emacsStages hhll s).map (fun u => (u.write16 (hhll + 2)
      (((afterFactors s).read32 hhll + factorProduct s).extractLsb' 0 16)).mem) = [(emacs hhll s).mem] := rfl

/-- The state between the two stores of EMACS meets the invariant. -/
theorem emacsStages_inv {s m : State} (h : s.Inv) (hhll : Word) (hm : m ∈ emacsStages hhll s) :
    m.Inv ∧ m.params = s.params := by
  simp only [emacsStages, List.mem_cons, List.not_mem_nil, or_false] at hm
  subst hm
  exact ⟨State.write16_inv (h.congr (by simp [State.touched32, afterFactors]) (by simp [State.touched32, afterFactors])
    (by simp [State.touched32, afterFactors]) (by simp [State.touched32, afterFactors])) _ _,
    by simp [State.touched32, afterFactors]⟩

/-- Every state between the stores of an instruction meets the invariant. -/
theorem betweenStores_inv {i : Instr} {s m : State} (h : s.Inv) (hm : m ∈ betweenStores i s) :
    m.Inv ∧ m.params = s.params := by
  unfold betweenStores at hm
  split at hm
  · exact pushStages_inv h _ hm
  · split at hm
    · exact pushStages_inv h _ hm
    · exact pushStages_inv h _ hm
    · exact pushStages_inv h _ hm
    · split at hm
      · simp at hm
      · exact pushStages_inv h _ hm
    · exact callStages_inv h _ hm
    · exact emacsStages_inv h _ hm
    · simp at hm

/-- Abandoning an instruction keeps the invariant, if the states between its stores and the one it would have led to
meet it. -/
theorem State.cutAt_inv {s before last done : State} {between : List State} (postbytes : List Xb)
    (h : ∀ m ∈ before :: between ++ [last], m.Inv ∧ m.params = s.params) :
    (s.cutAt before last done between postbytes).Inv := by
  obtain ⟨m, hm, h1, h2, h3, h4⟩ := State.cutAt_stored s before last done between postbytes
  have hl := (h last (by simp)).2
  refine ⟨h1 ▸ (h m hm).1.mem, h2 ▸ (h m hm).1.gmem, ?_⟩
  have hg := (h m hm).1.gpage
  rw [(h m hm).2, ← hl] at hg
  rw [h4]
  exact hg

end Sys2Proof.Machine
end

