-- ==== Sys2Proof/Laws/Results.lean ====
section
/-! SUPPORT. What a written register, a written condition code byte and a store amount to, in the words of
`Safety.lean`: each lemma takes the state an operation builds to what it gives. -/

namespace Sys2Proof.Machine

/-- A condition code byte that agrees with a list of flags, and elsewhere with the old byte. -/
def Ccr.Sets (flags : List (Flag × Bool)) (old new : Byte) : Prop :=
  (∀ p ∈ flags, flagOf new p.1 = p.2) ∧ ∀ f, (∀ p ∈ flags, p.1 ≠ f) → flagOf new f = flagOf old f

/-- The high byte of a word read (R81). -/
@[simp] theorem State.read16_high (s : State) (addr : Word) : (s.read16 addr).high = s.read8 addr := wordOf_high _ _

/-- The low byte of a word read (R81). -/
@[simp] theorem State.read16_low (s : State) (addr : Word) : (s.read16 addr).low = s.read8 (addr + 1) := wordOf_low _ _

/-- A register written with its flags gives exactly that. -/
theorem gives8_of {r : Reg8} {v k : Byte} {flags : List (Flag × Bool)} {u : State}
    (h : Ccr.Sets flags u.ccr k) : Gives8 r v flags u ((u.set8 r v).setCcr k) where
  value := by cases r <;> rfl
  flags := h
  rest := by
    intro p hp
    cases r <;> cases p <;> first | rfl | exact absurd hp (by decide)
  memory := by
    have : SameMemory u ((u.set8 r v).setCcr k) := by cases r <;> exact ⟨rfl, rfl, rfl, rfl, rfl, rfl, rfl⟩
    exact this.readsAsBefore

/-- A 16-bit register written with its flags gives exactly that. -/
theorem gives16_of {r : Reg16} {v : Word} {k : Byte} {flags : List (Flag × Bool)} {u : State}
    (h : Ccr.Sets flags u.ccr k) : Gives16 r v flags u ((u.set16 r v).setCcr k) where
  value := by
    cases r <;> try rfl
    exact wordOf_high_low v
  flags := h
  rest := by
    intro p hp
    cases r <;> cases p <;> first | rfl | exact absurd hp (by decide)
  memory := by
    have : SameMemory u ((u.set16 r v).setCcr k) := by cases r <;> exact ⟨rfl, rfl, rfl, rfl, rfl, rfl, rfl⟩
    exact this.readsAsBefore

/-- A condition code byte written gives its flags. -/
theorem givesFlags_of {k : Byte} {flags : List (Flag × Bool)} {u : State} (h : Ccr.Sets flags u.ccr k) :
    GivesFlags flags u (u.setCcr k) where
  flags := h
  rest := by
    intro p hp
    cases p <;> first | rfl | exact absurd hp (by decide)
  memory := SameMemory.readsAsBefore (s := u) ⟨rfl, rfl, rfl, rfl, rfl, rfl, rfl⟩

/-! ### Stores -/

/-- What was stored is seen in a state with the same memory. -/
theorem Stored.congr {stores : List (Place × Byte)} {u t t' : State} (h : Stored stores u t) (e : SameMemory t t') :
    Stored stores u t' where
  mem loc := by rw [e.mem, h.mem]
  gmem loc := by rw [e.gmem, h.gmem]
  ppage := by rw [e.ppage, h.ppage]
  gpage := by rw [e.gpage, h.gpage]
  devices := by rw [e.devices, h.devices]
  read hp addr hq := by rw [e.read8, h.read hp addr hq]

theorem setCcr_sameMemory (t : State) (k : Byte) : SameMemory t (t.setCcr k) := ⟨rfl, rfl, rfl, rfl, rfl, rfl, rfl⟩

/-- A byte stored gives exactly that. -/
theorem givesByte_of {u : State} {addr : Word} {v k : Byte} {flags : List (Flag × Bool)}
    (hu : memWf u.mem = true) (hg : memWf u.gmem = true) (h : Ccr.Sets flags u.ccr k) :
    GivesByte addr v flags u ((u.write8 addr v).setCcr k) where
  stored := (State.write8_stored hu hg addr v).congr (setCcr_sameMemory _ _)
  flags := h
  rest := by intro p hp; cases p <;> simp_all [Part.same]

/-- A word stored gives exactly that. -/
theorem givesWord_of {u : State} {addr v : Word} {k : Byte} {flags : List (Flag × Bool)}
    (hu : memWf u.mem = true) (hg : memWf u.gmem = true) (h : Ccr.Sets flags u.ccr k) :
    GivesWord addr v flags u ((u.write16 addr v).setCcr k) where
  stored := (State.write16_stored hu hg addr v).congr (setCcr_sameMemory _ _)
  flags := h
  rest := by intro p hp; cases p <;> simp_all [Part.same]

/-- A byte stored with no flag. -/
theorem givesByte_plain {u : State} {addr : Word} {v : Byte} (hu : memWf u.mem = true) (hg : memWf u.gmem = true) :
    GivesByte addr v [] u (u.write8 addr v) where
  stored := State.write8_stored hu hg addr v
  flags := ⟨by simp, fun f _ => by simp [State.flag]⟩
  rest := by intro p hp; cases p <;> simp_all [Part.same]

/-- A word stored with no flag. -/
theorem givesWord_plain {u : State} {addr v : Word} (hu : memWf u.mem = true) (hg : memWf u.gmem = true) :
    GivesWord addr v [] u (u.write16 addr v) where
  stored := State.write16_stored hu hg addr v
  flags := ⟨by simp, fun f _ => by simp [State.flag]⟩
  rest := by intro p hp; cases p <;> simp_all [Part.same]

/-- A byte stored in global memory gives exactly that. -/
theorem givesGlobalByte_of {u : State} {ea : Word} {v k : Byte} {flags : List (Flag × Bool)}
    (hu : memWf u.mem = true) (hg : memWf u.gmem = true) (h : Ccr.Sets flags u.ccr k) :
    GivesStores [(u.globalPlaceAt ea 0, v)] flags u ((u.globalWrite8 ea v).setCcr k) where
  stored := (State.globalWrite8_stored hu hg ea v).congr (setCcr_sameMemory _ _)
  flags := h
  rest := by intro p hp; cases p <;> simp_all [Part.same]

/-- A word stored in global memory gives exactly that. -/
theorem givesGlobalWord_of {u : State} {ea v : Word} {k : Byte} {flags : List (Flag × Bool)}
    (hu : memWf u.mem = true) (hg : memWf u.gmem = true) (h : Ccr.Sets flags u.ccr k) :
    GivesStores (globalWordStores u ea v) flags u ((u.globalWrite16 ea v).setCcr k) where
  stored := (State.globalWrite16_stored hu hg ea v).congr (setCcr_sameMemory _ _)
  flags := h
  rest := by intro p hp; cases p <;> simp_all [Part.same]

/-- Where an access goes is not moved by another SP. -/
theorem place_withSp (s : State) (p addr : Word) : ({ s with sp := p } : State).place addr = s.place addr := rfl

/-- A byte pushed. -/
theorem push8_pushes {s : State} (h : memWf s.mem = true) (hg : memWf s.gmem = true) (v : Byte) :
    Pushes 1 [(s.place (s.sp - 1), v)] s (s.push8 v) where
  sp := by simp
  stored := by
    have := State.write8_stored (u := { s with sp := s.sp - 1 }) h hg (s.sp - 1) v
    exact ⟨this.mem, this.gmem, this.ppage, this.gpage, this.devices, this.read⟩
  rest := by intro p hp; cases p <;> simp_all [Part.same]

/-- A word pushed. -/
theorem push16_pushes {s : State} (h : memWf s.mem = true) (hg : memWf s.gmem = true) (v : Word) :
    Pushes 2 (wordStores s (s.sp - 2) v) s (s.push16 v) where
  sp := by simp
  stored := by
    have := State.write16_stored (u := { s with sp := s.sp - 2 }) h hg (s.sp - 2) v
    exact ⟨this.mem, this.gmem, this.ppage, this.gpage, this.devices, this.read⟩
  rest := by intro p hp; cases p <;> simp_all [Part.same]

end Sys2Proof.Machine
end

