-- ==== Sys2Proof/Laws/Arithmetic.lean ====
section
/-! SUPPORT. The flag formulas of `Flags.lean`, on bits, against the arithmetic of `Safety.lean`, on numbers. -/

namespace Sys2Proof.Machine

/-! ### Lists of flags -/

theorem sets_nil (k : Byte) : Ccr.Sets [] k k := ⟨by simp, fun _ _ => rfl⟩

theorem sets_nzvc (k : Byte) (n z v c : Bool) : Ccr.Sets [(.n, n), (.z, z), (.v, v), (.c, c)] k (withNZVC k n z v c) := by
  refine ⟨by simp [withNZVC, withNZV, withNZ], fun f hf => ?_⟩
  cases f <;> simp_all [withNZVC, withNZV, withNZ]

theorem sets_hnzvc (k : Byte) (h n z v c : Bool) :
    Ccr.Sets [(.h, h), (.n, n), (.z, z), (.v, v), (.c, c)] k (withFlag (withNZVC k n z v c) .h h) := by
  refine ⟨by simp [withNZVC, withNZV, withNZ], fun f hf => ?_⟩
  cases f <;> simp_all [withNZVC, withNZV, withNZ]

theorem sets_nzv (k : Byte) (n z v : Bool) : Ccr.Sets [(.v, v), (.n, n), (.z, z)] k (withNZV k n z v) := by
  refine ⟨by simp [withNZV, withNZ], fun f hf => ?_⟩
  cases f <;> simp_all [withNZV, withNZ]

theorem sets_one (k : Byte) (f : Flag) (b : Bool) : Ccr.Sets [(f, b)] k (withFlag k f b) := by
  refine ⟨by simp, fun g hg => ?_⟩
  have : f ≠ g := by simpa using hg
  simp [this]

/-- Only the values matter. -/
theorem sets_congr {l m : List (Flag × Bool)} {k k' : Byte} (h : Ccr.Sets l k k') (e : l = m) : Ccr.Sets m k k' := e ▸ h

theorem beq_zero_eq {w : Nat} (r : BitVec w) : (r == 0#w) = decide (r.toNat = 0) := by
  rw [Bool.eq_iff_iff]
  simp [← BitVec.toNat_inj]

/-- N, Z and V of a load, a store or a logical operation (R16). -/
theorem logicCcr_sets {w : Nat} (k : Byte) (r : BitVec w) : Ccr.Sets (logicFlags r) k (logicCcr k r) := by
  have := sets_nzv k r.msb (r == 0#w) false
  rw [beq_zero_eq] at this
  simpa only [logicFlags, nzOf, logicCcr, beq_zero_eq] using this

/-! ### Addition and subtraction -/

theorem addAlu_r {w : Nat} (a b : BitVec w) (cin : Bool) : (addAlu a b cin).r = plus a b cin := rfl

theorem subAlu_r {w : Nat} (a b : BitVec w) (bin : Bool) : (subAlu a b bin).r = minus a b bin := rfl

theorem addAlu8_flags (a b : Byte) (cin : Bool) :
    [(Flag.n, (addAlu a b cin).n), (.z, (addAlu a b cin).z), (.v, (addAlu a b cin).v), (.c, (addAlu a b cin).c)] =
      addFlags a b cin := by
  have ha := a.isLt
  have hb := b.isLt
  have hc := Bool.toNat_le cin
  simp only [addAlu, addFlags, BitVec.msb_eq_decide, beq_zero_eq, BitVec.toNat_ofNat, BitVec.toInt_eq_toNat_cond,
    List.cons.injEq, Prod.mk.injEq, true_and, and_true]
  rw [Bool.eq_iff_iff]
  simp only [Bool.and_eq_true, beq_iff_eq, bne_iff_ne, ne_eq, decide_eq_decide, decide_eq_true_eq]
  split <;> split <;> omega

theorem addAlu16_flags (a b : Word) (cin : Bool) :
    [(Flag.n, (addAlu a b cin).n), (.z, (addAlu a b cin).z), (.v, (addAlu a b cin).v), (.c, (addAlu a b cin).c)] =
      addFlags a b cin := by
  have ha := a.isLt
  have hb := b.isLt
  have hc := Bool.toNat_le cin
  simp only [addAlu, addFlags, BitVec.msb_eq_decide, beq_zero_eq, BitVec.toNat_ofNat, BitVec.toInt_eq_toNat_cond,
    List.cons.injEq, Prod.mk.injEq, true_and, and_true]
  rw [Bool.eq_iff_iff]
  simp only [Bool.and_eq_true, beq_iff_eq, bne_iff_ne, ne_eq, decide_eq_decide, decide_eq_true_eq]
  split <;> split <;> omega

theorem subAlu8_flags (a b : Byte) (bin : Bool) :
    [(Flag.n, (subAlu a b bin).n), (.z, (subAlu a b bin).z), (.v, (subAlu a b bin).v), (.c, (subAlu a b bin).c)] =
      subFlags a b bin := by
  have ha := a.isLt
  have hb := b.isLt
  have hc := Bool.toNat_le bin
  simp only [subAlu, subFlags, BitVec.msb_eq_decide, beq_zero_eq, BitVec.toNat_ofInt, BitVec.toInt_eq_toNat_cond,
    List.cons.injEq, Prod.mk.injEq, true_and, and_true, decide_eq_decide]
  refine ⟨by omega, by omega, ?_, by omega⟩
  rw [Bool.eq_iff_iff]
  simp only [Bool.and_eq_true, bne_iff_ne, ne_eq, decide_eq_decide, decide_eq_true_eq]
  split <;> split <;> omega

theorem subAlu16_flags (a b : Word) (bin : Bool) :
    [(Flag.n, (subAlu a b bin).n), (.z, (subAlu a b bin).z), (.v, (subAlu a b bin).v), (.c, (subAlu a b bin).c)] =
      subFlags a b bin := by
  have ha := a.isLt
  have hb := b.isLt
  have hc := Bool.toNat_le bin
  simp only [subAlu, subFlags, BitVec.msb_eq_decide, beq_zero_eq, BitVec.toNat_ofInt, BitVec.toInt_eq_toNat_cond,
    List.cons.injEq, Prod.mk.injEq, true_and, and_true, decide_eq_decide]
  refine ⟨by omega, by omega, ?_, by omega⟩
  rw [Bool.eq_iff_iff]
  simp only [Bool.and_eq_true, bne_iff_ne, ne_eq, decide_eq_decide, decide_eq_true_eq]
  split <;> split <;> omega

/-- One more, modulo the width. -/
theorem plus_one8 (a : Byte) : plus a 1 false = a + 1 := by
  apply BitVec.eq_of_toNat_eq
  simp [plus, BitVec.toNat_add]

theorem plus_one16 (a : Word) : plus a 1 false = a + 1 := by
  apply BitVec.eq_of_toNat_eq
  simp [plus, BitVec.toNat_add]

/-- One less, modulo the width. -/
theorem minus_one8 (a : Byte) : minus a 1 false = a - 1 := by
  have := a.isLt
  apply BitVec.eq_of_toNat_eq
  simp only [minus, BitVec.toNat_ofInt, BitVec.toNat_sub, Bool.toNat_false]
  simp
  omega

theorem minus_one16 (a : Word) : minus a 1 false = a - 1 := by
  have := a.isLt
  apply BitVec.eq_of_toNat_eq
  simp only [minus, BitVec.toNat_ofInt, BitVec.toNat_sub, Bool.toNat_false]
  simp
  omega

/-! ### The condition codes of the templates -/

/-- The 8-bit addition template (R301). -/
theorem add8_sets (k : Byte) (a m : Byte) (c : Bool) :
    Ccr.Sets ((.h, nibbleCarry a m c) :: addFlags a m c) k
      (withFlag (withAlu k (addAlu a m c)) .h (halfCarry a m c)) := by
  rw [← addAlu8_flags]
  exact sets_hnzvc _ _ _ _ _ _

/-- The 16-bit addition template (R302). -/
theorem add16_sets (k : Byte) (a m : Word) (c : Bool) : Ccr.Sets (addFlags a m c) k (withAlu k (addAlu a m c)) := by
  rw [← addAlu16_flags]
  exact sets_nzvc _ _ _ _ _

/-- The subtraction and compare templates (R303, R381). -/
theorem sub8_sets (k : Byte) (a m : Byte) (c : Bool) : Ccr.Sets (subFlags a m c) k (withAlu k (subAlu a m c)) := by
  rw [← subAlu8_flags]
  exact sets_nzvc _ _ _ _ _

theorem sub16_sets (k : Byte) (a m : Word) (c : Bool) : Ccr.Sets (subFlags a m c) k (withAlu k (subAlu a m c)) := by
  rw [← subAlu16_flags]
  exact sets_nzvc _ _ _ _ _

/-- Z under `ExtZMode` (R304). -/
theorem withExtZ_flags {w : Nat} (mode : ExtZMode) (k : Byte) (l : List (Flag × Bool)) (f : Alu w)
    (h : [(Flag.n, f.n), (.z, f.z), (.v, f.v), (.c, f.c)] = l) :
    [(Flag.n, (f.withExtZ mode k).n), (.z, (f.withExtZ mode k).z), (.v, (f.withExtZ mode k).v),
      (.c, (f.withExtZ mode k).c)] = underExtZ mode (flagOf k .z) l := by
  subst h
  cases mode <;> simp [underExtZ, Alu.withExtZ, extZ]

/-- The 16-bit addition with carry (R302, R304). -/
theorem addCarry16_sets (mode : ExtZMode) (k : Byte) (a m : Word) (c : Bool) :
    Ccr.Sets (underExtZ mode (flagOf k .z) (addFlags a m c)) k (withAlu k ((addAlu a m c).withExtZ mode k)) := by
  rw [← withExtZ_flags mode k _ _ (addAlu16_flags a m c)]
  exact sets_nzvc _ _ _ _ _

/-- The 16-bit subtraction and compare with borrow (R303, R304, R381). -/
theorem subBorrow16_sets (mode : ExtZMode) (k : Byte) (a m : Word) (c : Bool) :
    Ccr.Sets (underExtZ mode (flagOf k .z) (subFlags a m c)) k (withAlu k ((subAlu a m c).withExtZ mode k)) := by
  rw [← withExtZ_flags mode k _ _ (subAlu16_flags a m c)]
  exact sets_nzvc _ _ _ _ _

/-- H written after flags that do not hold it. -/
theorem sets_h {k k' : Byte} {l : List (Flag × Bool)} {h : Bool} (hs : Ccr.Sets l k k')
    (hn : ∀ p ∈ l, p.1 ≠ Flag.h) : Ccr.Sets ((.h, h) :: l) k (withFlag k' .h h) := by
  refine ⟨fun p hp => ?_, fun f hf => ?_⟩
  · rcases List.mem_cons.1 hp with rfl | hp
    · simp
    · simp [Ne.symm (hn p hp), hs.1 p hp]
  · have h1 : Flag.h ≠ f := hf _ List.mem_cons_self
    simpa [h1] using hs.2 f fun p hp => hf p (List.mem_cons_of_mem _ hp)

/-- The order of a list of flags does not matter. -/
theorem sets_of_mem_iff {k k' : Byte} {l m : List (Flag × Bool)} (hs : Ccr.Sets l k k') (e : ∀ p, p ∈ l ↔ p ∈ m) :
    Ccr.Sets m k k' :=
  ⟨fun p hp => hs.1 p ((e p).2 hp), fun f hf => hs.2 f fun p hp => hf p ((e p).1 hp)⟩

/-- TST (R381). -/
theorem testCcr_sets {w : Nat} (k : Byte) (r : BitVec w) : Ccr.Sets ((.c, false) :: logicFlags r) k (testCcr k r) := by
  refine sets_of_mem_iff (sets_nzvc k r.msb (r == 0#w) false false) fun p => ?_
  simp only [logicFlags, nzOf, beq_zero_eq, List.mem_cons, List.not_mem_nil, or_false]
  tauto

/-- CLR (R229). -/
theorem clearCcr_sets (k : Byte) : Ccr.Sets [(.n, false), (.z, true), (.v, false), (.c, false)] k (clearCcr k) :=
  sets_nzvc _ _ _ _ _

/-- COM (R434). -/
theorem complementCcr_sets {w : Nat} (k : Byte) (r : BitVec w) :
    Ccr.Sets ((.c, true) :: logicFlags r) k (complementCcr k r) := by
  refine sets_of_mem_iff (sets_nzvc k r.msb (r == 0#w) false true) fun p => ?_
  simp only [logicFlags, nzOf, beq_zero_eq, List.mem_cons, List.not_mem_nil, or_false]
  tauto

/-- INC (R305). -/
theorem incCcr8_sets (k : Byte) (a : Byte) : Ccr.Sets (incFlags a) k (incCcr k a) := by
  have e : (a == BitVec.intMax 8) = decide (a.toNat = 2 ^ (8 - 1) - 1) := by
    rw [Bool.eq_iff_iff]
    simp [← BitVec.toNat_inj, BitVec.intMax]
  simp only [incCcr, incFlags, nzOf, plus_one8, beq_zero_eq, e, show (1#8 : Byte) = 1 from rfl]
  exact sets_nzv _ _ _ _

theorem incCcr16_sets (k : Byte) (a : Word) : Ccr.Sets (incFlags a) k (incCcr k a) := by
  have e : (a == BitVec.intMax 16) = decide (a.toNat = 2 ^ (16 - 1) - 1) := by
    rw [Bool.eq_iff_iff]
    simp [← BitVec.toNat_inj, BitVec.intMax]
  simp only [incCcr, incFlags, nzOf, plus_one16, beq_zero_eq, e, show (1#16 : Word) = 1 from rfl]
  exact sets_nzv _ _ _ _

/-- DEC (R305). -/
theorem decCcr8_sets (k : Byte) (a : Byte) : Ccr.Sets (decFlags a) k (decCcr k a) := by
  have e : (a == BitVec.intMin 8) = decide (a.toNat = 2 ^ (8 - 1)) := by
    rw [Bool.eq_iff_iff]
    simp [← BitVec.toNat_inj, BitVec.intMin]
  simp only [decCcr, decFlags, nzOf, minus_one8, beq_zero_eq, e, show (1#8 : Byte) = 1 from rfl]
  exact sets_nzv _ _ _ _

theorem decCcr16_sets (k : Byte) (a : Word) : Ccr.Sets (decFlags a) k (decCcr k a) := by
  have e : (a == BitVec.intMin 16) = decide (a.toNat = 2 ^ (16 - 1)) := by
    rw [Bool.eq_iff_iff]
    simp [← BitVec.toNat_inj, BitVec.intMin]
  simp only [decCcr, decFlags, nzOf, minus_one16, beq_zero_eq, e, show (1#16 : Word) = 1 from rfl]
  exact sets_nzv _ _ _ _

/-! ### Shifts (R471) -/

/-- The flags of a shift. -/
theorem shiftAlu_sets {w : Nat} (k : Byte) (r : BitVec w) (c : Bool) :
    Ccr.Sets (shiftFlags r c) k (withAlu k (shiftAlu r c)) := by
  refine sets_of_mem_iff (sets_nzvc k r.msb (r == 0#w) (r.msb != c) c) fun p => ?_
  simp only [shiftFlags, nzOf, beq_zero_eq, List.mem_cons, List.not_mem_nil, or_false, Bool.bne_eq_xor]
  tauto

theorem msb_eq_topBit {w : Nat} (a : BitVec w) : a.msb = topBit a := BitVec.msb_eq_decide a

theorem getLsbD_zero_eq_lowBit {w : Nat} (a : BitVec w) : a.getLsbD 0 = lowBit a := by
  simp [lowBit, BitVec.getLsbD, Nat.testBit_zero]

theorem shiftLeft_eq {w : Nat} (a : BitVec w) : a <<< 1 = shiftedLeft a := by
  apply BitVec.eq_of_toNat_eq
  simp [shiftedLeft, Nat.shiftLeft_eq, Nat.mul_comm]

theorem shiftRight_eq {w : Nat} (a : BitVec w) : a >>> 1 = shiftedRight a := by
  apply BitVec.eq_of_toNat_eq
  have := a.isLt
  simp only [shiftedRight, BitVec.toNat_ushiftRight, BitVec.toNat_ofNat, Nat.shiftRight_eq_div_pow, Nat.pow_one]
  exact (Nat.mod_eq_of_lt (by omega)).symm

theorem sshiftRight_eq {w : Nat} (a : BitVec w) : a.sshiftRight 1 = halved a := by
  have h : (a.sshiftRight 1).toInt = a.toInt / 2 := by
    rw [BitVec.toInt_sshiftRight, Int.shiftRight_eq_div_pow]
    rfl
  rw [halved, ← h, BitVec.ofInt_toInt]

theorem rotateLeft8_eq (a : Byte) (c : Bool) : (rolAlu a c).r = rotatedLeft c a := by
  have ha := a.isLt
  apply BitVec.eq_of_toNat_eq
  have e : (2 * a.toNat) % 2 ^ 8 = 2 ^ 1 * (a.toNat % 2 ^ 7) := by omega
  have h := Nat.two_pow_add_eq_or_of_lt (i := 1) (b := c.toNat) (by cases c <;> decide) (a.toNat % 2 ^ 7)
  have hc : (c.toNat % 2 ^ 8) = c.toNat := by cases c <;> rfl
  simp only [rolAlu, shiftAlu, rotatedLeft, BitVec.toNat_or, BitVec.toNat_shiftLeft, BitVec.toNat_setWidth,
    BitVec.toNat_ofBool, BitVec.toNat_ofNat, Nat.shiftLeft_eq, Nat.pow_one, hc]
  rw [Nat.mul_comm a.toNat 2, e, ← h]
  cases c <;> simp <;> omega

theorem rotateLeft16_eq (a : Word) (c : Bool) : (rolAlu a c).r = rotatedLeft c a := by
  have ha := a.isLt
  apply BitVec.eq_of_toNat_eq
  have e : (2 * a.toNat) % 2 ^ 16 = 2 ^ 1 * (a.toNat % 2 ^ 15) := by omega
  have h := Nat.two_pow_add_eq_or_of_lt (i := 1) (b := c.toNat) (by cases c <;> decide) (a.toNat % 2 ^ 15)
  have hc : (c.toNat % 2 ^ 16) = c.toNat := by cases c <;> rfl
  simp only [rolAlu, shiftAlu, rotatedLeft, BitVec.toNat_or, BitVec.toNat_shiftLeft, BitVec.toNat_setWidth,
    BitVec.toNat_ofBool, BitVec.toNat_ofNat, Nat.shiftLeft_eq, Nat.pow_one, hc]
  rw [Nat.mul_comm a.toNat 2, e, ← h]
  cases c <;> simp <;> omega

theorem rotateRight8_eq (a : Byte) (c : Bool) : (rorAlu a c).r = rotatedRight c a := by
  have ha := a.isLt
  apply BitVec.eq_of_toNat_eq
  have h := Nat.two_pow_add_eq_or_of_lt (i := 7) (b := a.toNat / 2) (by omega) c.toNat
  simp only [rorAlu, shiftAlu, rotatedRight, BitVec.toNat_or, BitVec.toNat_ushiftRight, BitVec.toNat_shiftLeft,
    BitVec.toNat_setWidth, BitVec.toNat_ofBool, BitVec.toNat_ofNat, Nat.shiftLeft_eq, Nat.shiftRight_eq_div_pow]
  rw [Nat.or_comm]
  cases c <;> simp at h ⊢ <;> omega

theorem rotateRight16_eq (a : Word) (c : Bool) : (rorAlu a c).r = rotatedRight c a := by
  have ha := a.isLt
  apply BitVec.eq_of_toNat_eq
  have h := Nat.two_pow_add_eq_or_of_lt (i := 15) (b := a.toNat / 2) (by omega) c.toNat
  simp only [rorAlu, shiftAlu, rotatedRight, BitVec.toNat_or, BitVec.toNat_ushiftRight, BitVec.toNat_shiftLeft,
    BitVec.toNat_setWidth, BitVec.toNat_ofBool, BitVec.toNat_ofNat, Nat.shiftLeft_eq, Nat.shiftRight_eq_div_pow]
  rw [Nat.or_comm]
  cases c <;> simp at h ⊢ <;> omega

end Sys2Proof.Machine
end

