-- ==== Sys2Proof/Laws/PerInstr.lean ====
section
/-! SUPPORT. The family `EncodedLength`: every well-formed instruction has at least one byte and at most the eight
that a step fetches (R122, R261). -/

namespace Sys2Proof.Laws.EncodedLength

/-- A well-formed instruction has 1 to 8 bytes. -/
def Statement (i : Instr) : Prop :=
  ∀ v, i.wellFormed v = true → 1 ≤ (encode i).length ∧ (encode i).length ≤ 8

theorem xb_bounds (xb : Xb) : 1 ≤ (encXb xb).length ∧ (encXb xb).length ≤ 3 := by
  cases xb <;> simp [encXb]

theorem ea_bounds (pre : List Byte) (p q r : Byte) (ea : Ea) :
    pre.length + 2 ≤ (encEa pre p q r ea).length ∧ (encEa pre p q r ea).length ≤ pre.length + 4 := by
  cases ea with
  | dir dd => simp [encEa]
  | ext hhll => simp [encEa]
  | idx xb => have := xb_bounds xb; simp [encEa]; omega

theorem eaNoDir_bounds (pre : List Byte) (q r : Byte) (ea : Ea) (h : ea.notDirect = true) :
    pre.length + 2 ≤ (encEaNoDir pre q r ea).length ∧ (encEaNoDir pre q r ea).length ≤ pre.length + 4 := by
  cases ea with
  | dir dd => simp [Ea.notDirect] at h
  | ext hhll => simp [encEaNoDir]
  | idx xb => have := xb_bounds xb; simp [encEaNoDir]; omega

theorem src8_bounds (pre : List Byte) (p q r t : Byte) (src : Src8) :
    pre.length + 2 ≤ (encSrc8 pre p q r t src).length ∧ (encSrc8 pre p q r t src).length ≤ pre.length + 4 := by
  cases src with
  | imm ii => simp [encSrc8]
  | mem ea => exact ea_bounds pre q r t ea

theorem src16_bounds (pre : List Byte) (p q r t : Byte) (src : Src16) :
    pre.length + 2 ≤ (encSrc16 pre p q r t src).length ∧ (encSrc16 pre p q r t src).length ≤ pre.length + 4 := by
  cases src with
  | imm jjkk => simp [encSrc16]
  | mem ea => exact ea_bounds pre q r t ea

theorem moveMem_bounds (v : Variant) (p q r t : Byte) (src dst : Ea) (h : src.moveForm v = true)
    (h' : dst.moveForm v = true) :
    1 ≤ (encMoveMem p q r t src dst).length ∧ (encMoveMem p q r t src dst).length ≤ 8 := by
  cases src <;> cases dst <;> simp [Ea.moveForm] at h h' <;> simp [encMoveMem]
  · rename_i xb; have := xb_bounds xb; omega
  · rename_i xb _; have := xb_bounds xb; omega
  · rename_i xb xb'; have := xb_bounds xb; have := xb_bounds xb'; omega

theorem moveImm_bounds (v : Variant) (p q : Byte) (imm : List Byte) (dst : Ea) (hi : imm.length ≤ 2)
    (h : dst.moveForm v = true) :
    1 ≤ (encMoveImm p q imm dst).length ∧ (encMoveImm p q imm dst).length ≤ 8 := by
  cases dst with
  | dir dd => simp [Ea.moveForm] at h
  | ext hhll => simp [encMoveImm]; omega
  | idx xb => have := xb_bounds xb; simp [encMoveImm]; omega

/-- The bounds of one operand, seen from the fetch. -/
theorem widen {n k : Nat} (h : k + 2 ≤ n ∧ n ≤ k + 4) (hk : Nat.ble k 4 = true) : 1 ≤ n ∧ n ≤ 8 := by
  have := Nat.le_of_ble_eq_true hk
  omega

/-- The bounds of bytes written out. -/
theorem bytes_bounds (l : List Byte) (h : (Nat.ble 1 l.length && Nat.ble l.length 8) = true) :
    1 ≤ l.length ∧ l.length ≤ 8 := by
  rw [Bool.and_eq_true] at h
  exact ⟨Nat.le_of_ble_eq_true h.1, Nat.le_of_ble_eq_true h.2⟩

/-- The bounds of an opcode before an index postbyte. -/
theorem xb_after_bounds (pre : List Byte) (xb : Xb) (h : Nat.ble pre.length 2 = true) :
    1 ≤ (pre ++ encXb xb).length ∧ (pre ++ encXb xb).length ≤ 8 := by
  have := xb_bounds xb
  have := Nat.le_of_ble_eq_true h
  rw [List.length_append]
  omega

/-- The bounds of an operand before a mask and an offset. -/
theorem ea_before_bounds (pre : List Byte) (p q r : Byte) (post : List Byte) (ea : Ea)
    (h : Nat.ble (pre.length + post.length) 4 = true) :
    1 ≤ (encEa pre p q r ea ++ post).length ∧ (encEa pre p q r ea ++ post).length ≤ 8 := by
  have := ea_bounds pre p q r ea
  have := Nat.le_of_ble_eq_true h
  rw [List.length_append]
  omega

theorem movb_bounds (v : Variant) (p q r t x y : Byte) (src : Src8) (dst : Ea)
    (h : (src.moveForm v && dst.moveForm v) = true) :
    1 ≤ (encMovb p q r t x y src dst).length ∧ (encMovb p q r t x y src dst).length ≤ 8 := by
  rw [Bool.and_eq_true] at h
  cases src with
  | imm k => exact moveImm_bounds v _ _ [k] dst (by simp) h.2
  | mem ea => exact moveMem_bounds v _ _ _ _ ea dst h.1 h.2

theorem movw_bounds (v : Variant) (p q r t x y : Byte) (src : Src16) (dst : Ea)
    (h : (src.moveForm v && dst.moveForm v) = true) :
    1 ≤ (encMovw p q r t x y src dst).length ∧ (encMovw p q r t x y src dst).length ≤ 8 := by
  rw [Bool.and_eq_true] at h
  cases src with
  | imm k => exact moveImm_bounds v _ _ [k.high, k.low] dst (by simp) h.2
  | mem ea => exact moveMem_bounds v _ _ _ _ ea dst h.1 h.2

theorem call_bounds (op : CallOp) (h : op.wellFormed = true) : 1 ≤ (encCall op).length ∧ (encCall op).length ≤ 8 := by
  cases op with
  | direct ea pg =>
    have := eaNoDir_bounds [] 0x4A 0x4B ea (Bool.and_eq_true_iff.mp h).1
    simp only [encCall, List.length_append, List.length_cons, List.length_nil] at this ⊢
    omega
  | indirect xb => exact xb_after_bounds [0x4B] xb rfl

theorem ldaa (src : Src8) : Statement (.ldaa src) := fun _ _ => widen (src8_bounds [] _ _ _ _ src) rfl

theorem ldab (src : Src8) : Statement (.ldab src) := fun _ _ => widen (src8_bounds [] _ _ _ _ src) rfl

theorem ldd (src : Src16) : Statement (.ldd src) := fun _ _ => widen (src16_bounds [] _ _ _ _ src) rfl

theorem lds (src : Src16) : Statement (.lds src) := fun _ _ => widen (src16_bounds [] _ _ _ _ src) rfl

theorem ldx (src : Src16) : Statement (.ldx src) := fun _ _ => widen (src16_bounds [] _ _ _ _ src) rfl

theorem ldy (src : Src16) : Statement (.ldy src) := fun _ _ => widen (src16_bounds [] _ _ _ _ src) rfl

theorem staa (ea : Ea) : Statement (.staa ea) := fun _ _ => widen (ea_bounds [] _ _ _ ea) rfl

theorem stab (ea : Ea) : Statement (.stab ea) := fun _ _ => widen (ea_bounds [] _ _ _ ea) rfl

theorem std (ea : Ea) : Statement (.std ea) := fun _ _ => widen (ea_bounds [] _ _ _ ea) rfl

theorem sts (ea : Ea) : Statement (.sts ea) := fun _ _ => widen (ea_bounds [] _ _ _ ea) rfl

theorem stx (ea : Ea) : Statement (.stx ea) := fun _ _ => widen (ea_bounds [] _ _ _ ea) rfl

theorem sty (ea : Ea) : Statement (.sty ea) := fun _ _ => widen (ea_bounds [] _ _ _ ea) rfl

theorem gldaa (ea : Ea) : Statement (.gldaa ea) := fun _ _ => widen (ea_bounds [0x18] _ _ _ ea) rfl

theorem gldab (ea : Ea) : Statement (.gldab ea) := fun _ _ => widen (ea_bounds [0x18] _ _ _ ea) rfl

theorem gldd (ea : Ea) : Statement (.gldd ea) := fun _ _ => widen (ea_bounds [0x18] _ _ _ ea) rfl

theorem glds (ea : Ea) : Statement (.glds ea) := fun _ _ => widen (ea_bounds [0x18] _ _ _ ea) rfl

theorem gldx (ea : Ea) : Statement (.gldx ea) := fun _ _ => widen (ea_bounds [0x18] _ _ _ ea) rfl

theorem gldy (ea : Ea) : Statement (.gldy ea) := fun _ _ => widen (ea_bounds [0x18] _ _ _ ea) rfl

theorem gstaa (ea : Ea) : Statement (.gstaa ea) := fun _ _ => widen (ea_bounds [0x18] _ _ _ ea) rfl

theorem gstab (ea : Ea) : Statement (.gstab ea) := fun _ _ => widen (ea_bounds [0x18] _ _ _ ea) rfl

theorem gstd (ea : Ea) : Statement (.gstd ea) := fun _ _ => widen (ea_bounds [0x18] _ _ _ ea) rfl

theorem gsts (ea : Ea) : Statement (.gsts ea) := fun _ _ => widen (ea_bounds [0x18] _ _ _ ea) rfl

theorem gstx (ea : Ea) : Statement (.gstx ea) := fun _ _ => widen (ea_bounds [0x18] _ _ _ ea) rfl

theorem gsty (ea : Ea) : Statement (.gsty ea) := fun _ _ => widen (ea_bounds [0x18] _ _ _ ea) rfl

theorem leas (xb : Xb) : Statement (.leas xb) := fun _ _ => xb_after_bounds _ xb rfl

theorem leax (xb : Xb) : Statement (.leax xb) := fun _ _ => xb_after_bounds _ xb rfl

theorem leay (xb : Xb) : Statement (.leay xb) := fun _ _ => xb_after_bounds _ xb rfl

theorem clr (ea : Ea) : Statement (.clr ea) := fun _ h => widen (eaNoDir_bounds [] _ _ ea h) rfl

theorem clrw (ea : Ea) : Statement (.clrw ea) :=
  fun _ h => widen (eaNoDir_bounds [0x18] _ _ ea (Bool.and_eq_true_iff.mp h).2) rfl

theorem movb (src : Src8) (dst : Ea) : Statement (.movb src dst) := fun v h => movb_bounds v _ _ _ _ _ _ src dst h

theorem movw (src : Src16) (dst : Ea) : Statement (.movw src dst) := fun v h => movw_bounds v _ _ _ _ _ _ src dst h

theorem tfr (r1 r2 : XferReg) (alt : Bool) : Statement (.tfr r1 r2 alt) := fun _ _ => bytes_bounds _ rfl

theorem exg (r1 r2 : XferReg) (alt : Bool) : Statement (.exg r1 r2 alt) := fun _ _ => bytes_bounds _ rfl

theorem sex (r1 : ByteReg) (r2 : WideReg) : Statement (.sex r1 r2) := fun _ _ => bytes_bounds _ rfl

theorem adca (src : Src8) : Statement (.adca src) := fun _ _ => widen (src8_bounds [] _ _ _ _ src) rfl

theorem adcb (src : Src8) : Statement (.adcb src) := fun _ _ => widen (src8_bounds [] _ _ _ _ src) rfl

theorem adda (src : Src8) : Statement (.adda src) := fun _ _ => widen (src8_bounds [] _ _ _ _ src) rfl

theorem addb (src : Src8) : Statement (.addb src) := fun _ _ => widen (src8_bounds [] _ _ _ _ src) rfl

theorem addd (src : Src16) : Statement (.addd src) := fun _ _ => widen (src16_bounds [] _ _ _ _ src) rfl

theorem addx (src : Src16) : Statement (.addx src) := fun _ _ => widen (src16_bounds [0x18] _ _ _ _ src) rfl

theorem addy (src : Src16) : Statement (.addy src) := fun _ _ => widen (src16_bounds [0x18] _ _ _ _ src) rfl

theorem aded (src : Src16) : Statement (.aded src) := fun _ _ => widen (src16_bounds [0x18] _ _ _ _ src) rfl

theorem adex (src : Src16) : Statement (.adex src) := fun _ _ => widen (src16_bounds [0x18] _ _ _ _ src) rfl

theorem adey (src : Src16) : Statement (.adey src) := fun _ _ => widen (src16_bounds [0x18] _ _ _ _ src) rfl

theorem sbca (src : Src8) : Statement (.sbca src) := fun _ _ => widen (src8_bounds [] _ _ _ _ src) rfl

theorem sbcb (src : Src8) : Statement (.sbcb src) := fun _ _ => widen (src8_bounds [] _ _ _ _ src) rfl

theorem sbed (src : Src16) : Statement (.sbed src) := fun _ _ => widen (src16_bounds [0x18] _ _ _ _ src) rfl

theorem sbex (src : Src16) : Statement (.sbex src) := fun _ _ => widen (src16_bounds [0x18] _ _ _ _ src) rfl

theorem sbey (src : Src16) : Statement (.sbey src) := fun _ _ => widen (src16_bounds [0x18] _ _ _ _ src) rfl

theorem suba (src : Src8) : Statement (.suba src) := fun _ _ => widen (src8_bounds [] _ _ _ _ src) rfl

theorem subb (src : Src8) : Statement (.subb src) := fun _ _ => widen (src8_bounds [] _ _ _ _ src) rfl

theorem subd (src : Src16) : Statement (.subd src) := fun _ _ => widen (src16_bounds [] _ _ _ _ src) rfl

theorem subx (src : Src16) : Statement (.subx src) := fun _ _ => widen (src16_bounds [0x18] _ _ _ _ src) rfl

theorem suby (src : Src16) : Statement (.suby src) := fun _ _ => widen (src16_bounds [0x18] _ _ _ _ src) rfl

theorem inc (ea : Ea) : Statement (.inc ea) := fun _ h => widen (eaNoDir_bounds [] _ _ ea h) rfl

theorem incw (ea : Ea) : Statement (.incw ea) :=
  fun _ h => widen (eaNoDir_bounds [0x18] _ _ ea (Bool.and_eq_true_iff.mp h).2) rfl

theorem dec (ea : Ea) : Statement (.dec ea) := fun _ h => widen (eaNoDir_bounds [] _ _ ea h) rfl

theorem decw (ea : Ea) : Statement (.decw ea) :=
  fun _ h => widen (eaNoDir_bounds [0x18] _ _ ea (Bool.and_eq_true_iff.mp h).2) rfl

theorem neg (ea : Ea) : Statement (.neg ea) := fun _ h => widen (eaNoDir_bounds [] _ _ ea h) rfl

theorem negw (ea : Ea) : Statement (.negw ea) :=
  fun _ h => widen (eaNoDir_bounds [0x18] _ _ ea (Bool.and_eq_true_iff.mp h).2) rfl

theorem cmpa (src : Src8) : Statement (.cmpa src) := fun _ _ => widen (src8_bounds [] _ _ _ _ src) rfl

theorem cmpb (src : Src8) : Statement (.cmpb src) := fun _ _ => widen (src8_bounds [] _ _ _ _ src) rfl

theorem cpd (src : Src16) : Statement (.cpd src) := fun _ _ => widen (src16_bounds [] _ _ _ _ src) rfl

theorem cps (src : Src16) : Statement (.cps src) := fun _ _ => widen (src16_bounds [] _ _ _ _ src) rfl

theorem cpx (src : Src16) : Statement (.cpx src) := fun _ _ => widen (src16_bounds [] _ _ _ _ src) rfl

theorem cpy (src : Src16) : Statement (.cpy src) := fun _ _ => widen (src16_bounds [] _ _ _ _ src) rfl

theorem cped (src : Src16) : Statement (.cped src) := fun _ _ => widen (src16_bounds [0x18] _ _ _ _ src) rfl

theorem cpes (src : Src16) : Statement (.cpes src) := fun _ _ => widen (src16_bounds [0x18] _ _ _ _ src) rfl

theorem cpex (src : Src16) : Statement (.cpex src) := fun _ _ => widen (src16_bounds [0x18] _ _ _ _ src) rfl

theorem cpey (src : Src16) : Statement (.cpey src) := fun _ _ => widen (src16_bounds [0x18] _ _ _ _ src) rfl

theorem tst (ea : Ea) : Statement (.tst ea) := fun _ h => widen (eaNoDir_bounds [] _ _ ea h) rfl

theorem tstw (ea : Ea) : Statement (.tstw ea) :=
  fun _ h => widen (eaNoDir_bounds [0x18] _ _ ea (Bool.and_eq_true_iff.mp h).2) rfl

theorem bita (src : Src8) : Statement (.bita src) := fun _ _ => widen (src8_bounds [] _ _ _ _ src) rfl

theorem bitb (src : Src8) : Statement (.bitb src) := fun _ _ => widen (src8_bounds [] _ _ _ _ src) rfl

theorem bitx (src : Src16) : Statement (.bitx src) := fun _ _ => widen (src16_bounds [0x18] _ _ _ _ src) rfl

theorem bity (src : Src16) : Statement (.bity src) := fun _ _ => widen (src16_bounds [0x18] _ _ _ _ src) rfl

theorem anda (src : Src8) : Statement (.anda src) := fun _ _ => widen (src8_bounds [] _ _ _ _ src) rfl

theorem andb (src : Src8) : Statement (.andb src) := fun _ _ => widen (src8_bounds [] _ _ _ _ src) rfl

theorem andx (src : Src16) : Statement (.andx src) := fun _ _ => widen (src16_bounds [0x18] _ _ _ _ src) rfl

theorem andy (src : Src16) : Statement (.andy src) := fun _ _ => widen (src16_bounds [0x18] _ _ _ _ src) rfl

theorem oraa (src : Src8) : Statement (.oraa src) := fun _ _ => widen (src8_bounds [] _ _ _ _ src) rfl

theorem orab (src : Src8) : Statement (.orab src) := fun _ _ => widen (src8_bounds [] _ _ _ _ src) rfl

theorem orx (src : Src16) : Statement (.orx src) := fun _ _ => widen (src16_bounds [0x18] _ _ _ _ src) rfl

theorem ory (src : Src16) : Statement (.ory src) := fun _ _ => widen (src16_bounds [0x18] _ _ _ _ src) rfl

theorem eora (src : Src8) : Statement (.eora src) := fun _ _ => widen (src8_bounds [] _ _ _ _ src) rfl

theorem eorb (src : Src8) : Statement (.eorb src) := fun _ _ => widen (src8_bounds [] _ _ _ _ src) rfl

theorem eorx (src : Src16) : Statement (.eorx src) := fun _ _ => widen (src16_bounds [0x18] _ _ _ _ src) rfl

theorem eory (src : Src16) : Statement (.eory src) := fun _ _ => widen (src16_bounds [0x18] _ _ _ _ src) rfl

theorem com (ea : Ea) : Statement (.com ea) := fun _ h => widen (eaNoDir_bounds [] _ _ ea h) rfl

theorem comw (ea : Ea) : Statement (.comw ea) :=
  fun _ h => widen (eaNoDir_bounds [0x18] _ _ ea (Bool.and_eq_true_iff.mp h).2) rfl

theorem andcc (ii : Byte) : Statement (.andcc ii) := fun _ _ => bytes_bounds _ rfl

theorem orcc (ii : Byte) : Statement (.orcc ii) := fun _ _ => bytes_bounds _ rfl

theorem bclr (ea : Ea) (mm : Byte) : Statement (.bclr ea mm) := fun _ _ => ea_before_bounds [] _ _ _ [mm] ea rfl

theorem bset (ea : Ea) (mm : Byte) : Statement (.bset ea mm) := fun _ _ => ea_before_bounds [] _ _ _ [mm] ea rfl

theorem btas (ea : Ea) (mm : Byte) : Statement (.btas ea mm) := fun _ _ => ea_before_bounds [0x18] _ _ _ [mm] ea rfl

theorem asl (ea : Ea) : Statement (.asl ea) := fun _ h => widen (eaNoDir_bounds [] _ _ ea h) rfl

theorem aslw (ea : Ea) : Statement (.aslw ea) :=
  fun _ h => widen (eaNoDir_bounds [0x18] _ _ ea (Bool.and_eq_true_iff.mp h).2) rfl

theorem asr (ea : Ea) : Statement (.asr ea) := fun _ h => widen (eaNoDir_bounds [] _ _ ea h) rfl

theorem asrw (ea : Ea) : Statement (.asrw ea) :=
  fun _ h => widen (eaNoDir_bounds [0x18] _ _ ea (Bool.and_eq_true_iff.mp h).2) rfl

theorem lsl (ea : Ea) : Statement (.lsl ea) := fun _ h => widen (eaNoDir_bounds [] _ _ ea h) rfl

theorem lsr (ea : Ea) : Statement (.lsr ea) := fun _ h => widen (eaNoDir_bounds [] _ _ ea h) rfl

theorem lsrw (ea : Ea) : Statement (.lsrw ea) :=
  fun _ h => widen (eaNoDir_bounds [0x18] _ _ ea (Bool.and_eq_true_iff.mp h).2) rfl

theorem rol (ea : Ea) : Statement (.rol ea) := fun _ h => widen (eaNoDir_bounds [] _ _ ea h) rfl

theorem rolw (ea : Ea) : Statement (.rolw ea) :=
  fun _ h => widen (eaNoDir_bounds [0x18] _ _ ea (Bool.and_eq_true_iff.mp h).2) rfl

theorem ror (ea : Ea) : Statement (.ror ea) := fun _ h => widen (eaNoDir_bounds [] _ _ ea h) rfl

theorem rorw (ea : Ea) : Statement (.rorw ea) :=
  fun _ h => widen (eaNoDir_bounds [0x18] _ _ ea (Bool.and_eq_true_iff.mp h).2) rfl

theorem emacs (hhll : Word) : Statement (.emacs hhll) := fun _ _ => bytes_bounds _ rfl

theorem maxa (xb : Xb) : Statement (.maxa xb) := fun _ _ => xb_after_bounds _ xb rfl

theorem maxm (xb : Xb) : Statement (.maxm xb) := fun _ _ => xb_after_bounds _ xb rfl

theorem mina (xb : Xb) : Statement (.mina xb) := fun _ _ => xb_after_bounds _ xb rfl

theorem minm (xb : Xb) : Statement (.minm xb) := fun _ _ => xb_after_bounds _ xb rfl

theorem emaxd (xb : Xb) : Statement (.emaxd xb) := fun _ _ => xb_after_bounds _ xb rfl

theorem emaxm (xb : Xb) : Statement (.emaxm xb) := fun _ _ => xb_after_bounds _ xb rfl

theorem emind (xb : Xb) : Statement (.emind xb) := fun _ _ => xb_after_bounds _ xb rfl

theorem eminm (xb : Xb) : Statement (.eminm xb) := fun _ _ => xb_after_bounds _ xb rfl

theorem tbl (xb : Xb) : Statement (.tbl xb) := fun _ _ => xb_after_bounds _ xb rfl

theorem etbl (xb : Xb) : Statement (.etbl xb) := fun _ _ => xb_after_bounds _ xb rfl

theorem bcc (rr : Byte) : Statement (.bcc rr) := fun _ _ => bytes_bounds _ rfl

theorem bcs (rr : Byte) : Statement (.bcs rr) := fun _ _ => bytes_bounds _ rfl

theorem beq (rr : Byte) : Statement (.beq rr) := fun _ _ => bytes_bounds _ rfl

theorem bge (rr : Byte) : Statement (.bge rr) := fun _ _ => bytes_bounds _ rfl

theorem bgt (rr : Byte) : Statement (.bgt rr) := fun _ _ => bytes_bounds _ rfl

theorem bhi (rr : Byte) : Statement (.bhi rr) := fun _ _ => bytes_bounds _ rfl

theorem bhs (rr : Byte) : Statement (.bhs rr) := fun _ _ => bytes_bounds _ rfl

theorem ble (rr : Byte) : Statement (.ble rr) := fun _ _ => bytes_bounds _ rfl

theorem blo (rr : Byte) : Statement (.blo rr) := fun _ _ => bytes_bounds _ rfl

theorem bls (rr : Byte) : Statement (.bls rr) := fun _ _ => bytes_bounds _ rfl

theorem blt (rr : Byte) : Statement (.blt rr) := fun _ _ => bytes_bounds _ rfl

theorem bmi (rr : Byte) : Statement (.bmi rr) := fun _ _ => bytes_bounds _ rfl

theorem bne (rr : Byte) : Statement (.bne rr) := fun _ _ => bytes_bounds _ rfl

theorem bpl (rr : Byte) : Statement (.bpl rr) := fun _ _ => bytes_bounds _ rfl

theorem bra (rr : Byte) : Statement (.bra rr) := fun _ _ => bytes_bounds _ rfl

theorem brn (rr : Byte) : Statement (.brn rr) := fun _ _ => bytes_bounds _ rfl

theorem bvc (rr : Byte) : Statement (.bvc rr) := fun _ _ => bytes_bounds _ rfl

theorem bvs (rr : Byte) : Statement (.bvs rr) := fun _ _ => bytes_bounds _ rfl

theorem lbcc (qqrr : Word) : Statement (.lbcc qqrr) := fun _ _ => bytes_bounds _ rfl

theorem lbcs (qqrr : Word) : Statement (.lbcs qqrr) := fun _ _ => bytes_bounds _ rfl

theorem lbeq (qqrr : Word) : Statement (.lbeq qqrr) := fun _ _ => bytes_bounds _ rfl

theorem lbge (qqrr : Word) : Statement (.lbge qqrr) := fun _ _ => bytes_bounds _ rfl

theorem lbgt (qqrr : Word) : Statement (.lbgt qqrr) := fun _ _ => bytes_bounds _ rfl

theorem lbhi (qqrr : Word) : Statement (.lbhi qqrr) := fun _ _ => bytes_bounds _ rfl

theorem lbhs (qqrr : Word) : Statement (.lbhs qqrr) := fun _ _ => bytes_bounds _ rfl

theorem lble (qqrr : Word) : Statement (.lble qqrr) := fun _ _ => bytes_bounds _ rfl

theorem lblo (qqrr : Word) : Statement (.lblo qqrr) := fun _ _ => bytes_bounds _ rfl

theorem lbls (qqrr : Word) : Statement (.lbls qqrr) := fun _ _ => bytes_bounds _ rfl

theorem lblt (qqrr : Word) : Statement (.lblt qqrr) := fun _ _ => bytes_bounds _ rfl

theorem lbmi (qqrr : Word) : Statement (.lbmi qqrr) := fun _ _ => bytes_bounds _ rfl

theorem lbne (qqrr : Word) : Statement (.lbne qqrr) := fun _ _ => bytes_bounds _ rfl

theorem lbpl (qqrr : Word) : Statement (.lbpl qqrr) := fun _ _ => bytes_bounds _ rfl

theorem lbra (qqrr : Word) : Statement (.lbra qqrr) := fun _ _ => bytes_bounds _ rfl

theorem lbrn (qqrr : Word) : Statement (.lbrn qqrr) := fun _ _ => bytes_bounds _ rfl

theorem lbvc (qqrr : Word) : Statement (.lbvc qqrr) := fun _ _ => bytes_bounds _ rfl

theorem lbvs (qqrr : Word) : Statement (.lbvs qqrr) := fun _ _ => bytes_bounds _ rfl

theorem brclr (ea : Ea) (mm : Byte) (rr : Byte) : Statement (.brclr ea mm rr) :=
  fun _ _ => ea_before_bounds [] _ _ _ [mm, rr] ea rfl

theorem brset (ea : Ea) (mm : Byte) (rr : Byte) : Statement (.brset ea mm rr) :=
  fun _ _ => ea_before_bounds [] _ _ _ [mm, rr] ea rfl

theorem dbeq (r : LoopReg) (off : BitVec 9) : Statement (.dbeq r off) := fun _ _ => bytes_bounds _ rfl

theorem dbne (r : LoopReg) (off : BitVec 9) : Statement (.dbne r off) := fun _ _ => bytes_bounds _ rfl

theorem ibeq (r : LoopReg) (off : BitVec 9) : Statement (.ibeq r off) := fun _ _ => bytes_bounds _ rfl

theorem ibne (r : LoopReg) (off : BitVec 9) : Statement (.ibne r off) := fun _ _ => bytes_bounds _ rfl

theorem tbeq (r : LoopReg) (off : BitVec 9) : Statement (.tbeq r off) := fun _ _ => bytes_bounds _ rfl

theorem tbne (r : LoopReg) (off : BitVec 9) : Statement (.tbne r off) := fun _ _ => bytes_bounds _ rfl

theorem bsr (rr : Byte) : Statement (.bsr rr) := fun _ _ => bytes_bounds _ rfl

theorem jsr (ea : Ea) : Statement (.jsr ea) := fun _ _ => widen (ea_bounds [] _ _ _ ea) rfl

theorem call (op : CallOp) : Statement (.call op) := fun _ h => call_bounds op h

theorem jmp (ea : Ea) : Statement (.jmp ea) := fun _ h => widen (eaNoDir_bounds [] _ _ ea h) rfl

theorem trap (tn : Byte) : Statement (.trap tn) := fun _ _ => bytes_bounds _ rfl

theorem clra : Statement (.clra) := fun _ _ => bytes_bounds _ rfl

theorem clrb : Statement (.clrb) := fun _ _ => bytes_bounds _ rfl

theorem clrx : Statement (.clrx) := fun _ _ => bytes_bounds _ rfl

theorem clry : Statement (.clry) := fun _ _ => bytes_bounds _ rfl

theorem psha : Statement (.psha) := fun _ _ => bytes_bounds _ rfl

theorem pshb : Statement (.pshb) := fun _ _ => bytes_bounds _ rfl

theorem pshc : Statement (.pshc) := fun _ _ => bytes_bounds _ rfl

theorem pshcw : Statement (.pshcw) := fun _ _ => bytes_bounds _ rfl

theorem pshd : Statement (.pshd) := fun _ _ => bytes_bounds _ rfl

theorem pshx : Statement (.pshx) := fun _ _ => bytes_bounds _ rfl

theorem pshy : Statement (.pshy) := fun _ _ => bytes_bounds _ rfl

theorem pula : Statement (.pula) := fun _ _ => bytes_bounds _ rfl

theorem pulb : Statement (.pulb) := fun _ _ => bytes_bounds _ rfl

theorem pulc : Statement (.pulc) := fun _ _ => bytes_bounds _ rfl

theorem pulcw : Statement (.pulcw) := fun _ _ => bytes_bounds _ rfl

theorem puld : Statement (.puld) := fun _ _ => bytes_bounds _ rfl

theorem pulx : Statement (.pulx) := fun _ _ => bytes_bounds _ rfl

theorem puly : Statement (.puly) := fun _ _ => bytes_bounds _ rfl

theorem tap : Statement (.tap) := fun _ _ => bytes_bounds _ rfl

theorem tpa : Statement (.tpa) := fun _ _ => bytes_bounds _ rfl

theorem tsx : Statement (.tsx) := fun _ _ => bytes_bounds _ rfl

theorem tsy : Statement (.tsy) := fun _ _ => bytes_bounds _ rfl

theorem txs : Statement (.txs) := fun _ _ => bytes_bounds _ rfl

theorem tys : Statement (.tys) := fun _ _ => bytes_bounds _ rfl

theorem xgdx : Statement (.xgdx) := fun _ _ => bytes_bounds _ rfl

theorem xgdy : Statement (.xgdy) := fun _ _ => bytes_bounds _ rfl

theorem tab : Statement (.tab) := fun _ _ => bytes_bounds _ rfl

theorem tba : Statement (.tba) := fun _ _ => bytes_bounds _ rfl

theorem aba : Statement (.aba) := fun _ _ => bytes_bounds _ rfl

theorem abx : Statement (.abx) := fun _ _ => bytes_bounds _ rfl

theorem aby : Statement (.aby) := fun _ _ => bytes_bounds _ rfl

theorem sba : Statement (.sba) := fun _ _ => bytes_bounds _ rfl

theorem daa : Statement (.daa) := fun _ _ => bytes_bounds _ rfl

theorem inca : Statement (.inca) := fun _ _ => bytes_bounds _ rfl

theorem incb : Statement (.incb) := fun _ _ => bytes_bounds _ rfl

theorem incx : Statement (.incx) := fun _ _ => bytes_bounds _ rfl

theorem incy : Statement (.incy) := fun _ _ => bytes_bounds _ rfl

theorem inx : Statement (.inx) := fun _ _ => bytes_bounds _ rfl

theorem iny : Statement (.iny) := fun _ _ => bytes_bounds _ rfl

theorem ins : Statement (.ins) := fun _ _ => bytes_bounds _ rfl

theorem deca : Statement (.deca) := fun _ _ => bytes_bounds _ rfl

theorem decb : Statement (.decb) := fun _ _ => bytes_bounds _ rfl

theorem decx : Statement (.decx) := fun _ _ => bytes_bounds _ rfl

theorem decy : Statement (.decy) := fun _ _ => bytes_bounds _ rfl

theorem dex : Statement (.dex) := fun _ _ => bytes_bounds _ rfl

theorem dey : Statement (.dey) := fun _ _ => bytes_bounds _ rfl

theorem des : Statement (.des) := fun _ _ => bytes_bounds _ rfl

theorem nega : Statement (.nega) := fun _ _ => bytes_bounds _ rfl

theorem negb : Statement (.negb) := fun _ _ => bytes_bounds _ rfl

theorem negx : Statement (.negx) := fun _ _ => bytes_bounds _ rfl

theorem negy : Statement (.negy) := fun _ _ => bytes_bounds _ rfl

theorem cba : Statement (.cba) := fun _ _ => bytes_bounds _ rfl

theorem tsta : Statement (.tsta) := fun _ _ => bytes_bounds _ rfl

theorem tstb : Statement (.tstb) := fun _ _ => bytes_bounds _ rfl

theorem tstx : Statement (.tstx) := fun _ _ => bytes_bounds _ rfl

theorem tsty : Statement (.tsty) := fun _ _ => bytes_bounds _ rfl

theorem coma : Statement (.coma) := fun _ _ => bytes_bounds _ rfl

theorem comb : Statement (.comb) := fun _ _ => bytes_bounds _ rfl

theorem comx : Statement (.comx) := fun _ _ => bytes_bounds _ rfl

theorem comy : Statement (.comy) := fun _ _ => bytes_bounds _ rfl

theorem clc : Statement (.clc) := fun _ _ => bytes_bounds _ rfl

theorem cli : Statement (.cli) := fun _ _ => bytes_bounds _ rfl

theorem clv : Statement (.clv) := fun _ _ => bytes_bounds _ rfl

theorem sec : Statement (.sec) := fun _ _ => bytes_bounds _ rfl

theorem sei : Statement (.sei) := fun _ _ => bytes_bounds _ rfl

theorem sev : Statement (.sev) := fun _ _ => bytes_bounds _ rfl

theorem asla : Statement (.asla) := fun _ _ => bytes_bounds _ rfl

theorem aslb : Statement (.aslb) := fun _ _ => bytes_bounds _ rfl

theorem asld : Statement (.asld) := fun _ _ => bytes_bounds _ rfl

theorem aslx : Statement (.aslx) := fun _ _ => bytes_bounds _ rfl

theorem asly : Statement (.asly) := fun _ _ => bytes_bounds _ rfl

theorem asra : Statement (.asra) := fun _ _ => bytes_bounds _ rfl

theorem asrb : Statement (.asrb) := fun _ _ => bytes_bounds _ rfl

theorem asrx : Statement (.asrx) := fun _ _ => bytes_bounds _ rfl

theorem asry : Statement (.asry) := fun _ _ => bytes_bounds _ rfl

theorem lsla : Statement (.lsla) := fun _ _ => bytes_bounds _ rfl

theorem lslb : Statement (.lslb) := fun _ _ => bytes_bounds _ rfl

theorem lsld : Statement (.lsld) := fun _ _ => bytes_bounds _ rfl

theorem lsra : Statement (.lsra) := fun _ _ => bytes_bounds _ rfl

theorem lsrb : Statement (.lsrb) := fun _ _ => bytes_bounds _ rfl

theorem lsrd : Statement (.lsrd) := fun _ _ => bytes_bounds _ rfl

theorem lsrx : Statement (.lsrx) := fun _ _ => bytes_bounds _ rfl

theorem lsry : Statement (.lsry) := fun _ _ => bytes_bounds _ rfl

theorem rola : Statement (.rola) := fun _ _ => bytes_bounds _ rfl

theorem rolb : Statement (.rolb) := fun _ _ => bytes_bounds _ rfl

theorem rolx : Statement (.rolx) := fun _ _ => bytes_bounds _ rfl

theorem roly : Statement (.roly) := fun _ _ => bytes_bounds _ rfl

theorem rora : Statement (.rora) := fun _ _ => bytes_bounds _ rfl

theorem rorb : Statement (.rorb) := fun _ _ => bytes_bounds _ rfl

theorem rorx : Statement (.rorx) := fun _ _ => bytes_bounds _ rfl

theorem rory : Statement (.rory) := fun _ _ => bytes_bounds _ rfl

theorem mul : Statement (.mul) := fun _ _ => bytes_bounds _ rfl

theorem emul : Statement (.emul) := fun _ _ => bytes_bounds _ rfl

theorem emuls : Statement (.emuls) := fun _ _ => bytes_bounds _ rfl

theorem ediv : Statement (.ediv) := fun _ _ => bytes_bounds _ rfl

theorem edivs : Statement (.edivs) := fun _ _ => bytes_bounds _ rfl

theorem fdiv : Statement (.fdiv) := fun _ _ => bytes_bounds _ rfl

theorem idiv : Statement (.idiv) := fun _ _ => bytes_bounds _ rfl

theorem idivs : Statement (.idivs) := fun _ _ => bytes_bounds _ rfl

theorem mem : Statement (.mem) := fun _ _ => bytes_bounds _ rfl

theorem rev : Statement (.rev) := fun _ _ => bytes_bounds _ rfl

theorem revw : Statement (.revw) := fun _ _ => bytes_bounds _ rfl

theorem wav : Statement (.wav) := fun _ _ => bytes_bounds _ rfl

theorem wavr : Statement (.wavr) := fun _ _ => bytes_bounds _ rfl

theorem rtc : Statement (.rtc) := fun _ _ => bytes_bounds _ rfl

theorem rts : Statement (.rts) := fun _ _ => bytes_bounds _ rfl

theorem nop : Statement (.nop) := fun _ _ => bytes_bounds _ rfl

theorem bgnd : Statement (.bgnd) := fun _ _ => bytes_bounds _ rfl

theorem swi : Statement (.swi) := fun _ _ => bytes_bounds _ rfl

theorem rti : Statement (.rti) := fun _ _ => bytes_bounds _ rfl

theorem wai : Statement (.wai) := fun _ _ => bytes_bounds _ rfl

theorem stop : Statement (.stop) := fun _ _ => bytes_bounds _ rfl

end Sys2Proof.Laws.EncodedLength
end

