-- ==== Sys2Proof/Tests/Slice0.lean ====
section
/-! SUPPORT. Tests: ill-formed terms refused by `wellFormed`, the decoding of words written out from the encodings of
the spec, one step at a time the derived vectors V40.1 to V49.25 and E1 to E15 of `95_test_vectors.md` and
`96_test_vectors_2.md` (their ids are in the names), and for every obligation a concrete state that meets its
hypotheses. -/

namespace Sys2Proof.Tests

open Sys2Proof.Machine

/-! ### Helpers -/

/-- The state that the derived vectors start from. -/
def start : State := { State.reset with sp := 0x2000, pc := 0x1000, ccr := 0xD0 }

/-- The same on HCS12. -/
def startHcs12 : State := { start with params := { variant := .hcs12 } }

/-- Bytes put into memory at the listed addresses. -/
def filled (s : State) (mem : List (Word × List Byte)) : State :=
  mem.foldl (fun s m => s.placeBytes m.1 m.2) s

/-- The start state of a vector: its parameters, its memory, the instruction at PC. -/
def prepared (params : Params) (s : State) (code : List Byte) (mem : List (Word × List Byte)) : State :=
  filled { s with params := params } ((s.pc, code) :: mem)

/-- A step answers a next state with the given property. -/
def stepGives (s : State) (post : State → Bool) : Bool :=
  match step s with
  | .next t => post t
  | .fault _ => false
  | .refused _ => false

/-- One step of a vector. -/
def runs (params : Params) (s : State) (code : List Byte) (mem : List (Word × List Byte)) (post : State → Bool) :
    Bool := stepGives (prepared params s code mem) post

/-- One step of a vector that starts with bytes in the global memory. -/
def runsGlobal (gmem : List Host.Cell) (params : Params) (s : State) (code : List Byte)
    (mem : List (Word × List Byte)) (post : State → Bool) : Bool :=
  stepGives { prepared params s code mem with gmem := memOfCells gmem } post

/-- A vector whose encoding is refused. -/
def refuses (params : Params) (s : State) (code : List Byte) (mem : List (Word × List Byte)) : Bool :=
  match step (prepared params s code mem) with
  | .refused (.undefinedEncoding _) => true
  | .refused (.notModelled _) => false
  | .next _ => false
  | .fault _ => false

/-- The logical memory holds the listed bytes. -/
def holds (t : State) (mem : List (Word × List Byte)) : Bool :=
  mem.all fun m => m.2.zipIdx.all fun b => t.read8 (m.1 + BitVec.ofNat 16 b.2) == b.1

/-- The global memory holds the listed bytes. -/
def holdsGlobal (t : State) (cells : List Host.Cell) : Bool := cells.all fun c => memGet t.gmem c.1 == c.2

/-- Bytes that decode to an instruction, all of them used. -/
def decodesAs (v : Variant) (bytes : List Byte) (i : Instr) : Bool :=
  match decode v bytes with
  | .ok (j, []) => j == i
  | .ok (_, _ :: _) => false
  | .error _ => false

/-- HCS12X words that decode to their instructions. -/
def decodes (rows : List (List Byte × Instr)) : Bool := rows.all fun r => decodesAs .hcs12x r.1 r.2

/-- Bytes that the decoder refuses by a name. -/
def refusedAs (v : Variant) (bytes : List Byte) (e : DecodeError) : Bool :=
  match decode v bytes with
  | .ok _ => false
  | .error d => d == e

/-! ### Ill-formed terms -/

/-- CLR has no direct form (`notDirect`). -/
theorem test_illFormed_notDirect : Instr.wellFormed .hcs12x (.clr (.dir 0x40)) = false := by decide

/-- BCLR has no indirect form (`notIndirect`). -/
theorem test_illFormed_notIndirect : Instr.wellFormed .hcs12x (.bclr (.idx (.indirectD .x)) 1) = false := by decide

/-- LEAX has no indirect form. -/
theorem test_illFormed_lea : Instr.wellFormed .hcs12x (.leax (.indirect16 .x 2)) = false := by decide

/-- TBL takes a postbyte without extension only (`isPlainIdx`). -/
theorem test_illFormed_plainIdx :
    Instr.wellFormed .hcs12 (.tbl (.const9 .x 16)) = false ∧
      Instr.wellFormed .hcs12x (.etbl (.indirectD .x)) = false := by decide

/-- MOVB has no direct form, and on HCS12 no postbyte with extension (`moveForm`). -/
theorem test_illFormed_moveSource :
    Instr.wellFormed .hcs12x (.movb (.mem (.dir 0x40)) (.ext 0x2000)) = false ∧
      Instr.wellFormed .hcs12 (.movb (.mem (.idx (.const9 .x 16))) (.ext 0x2000)) = false := by decide

/-- The destination of MOVW is bound the same way. -/
theorem test_illFormed_moveDestination :
    Instr.wellFormed .hcs12 (.movw (.imm 1) (.idx (.indirectD .x))) = false ∧
      Instr.wellFormed .hcs12x (.movw (.imm 1) (.dir 0x40)) = false := by decide

/-- CALL: an indirect postbyte has no page byte, every other form has one. -/
theorem test_illFormed_call :
    Instr.wellFormed .hcs12x (.call (.direct (.idx (.indirectD .x)) 5)) = false ∧
      Instr.wellFormed .hcs12x (.call (.indirect (.const5 .x 0))) = false ∧
      Instr.wellFormed .hcs12x (.call (.direct (.dir 0x40) 5)) = false := by decide

/-- The trap numbers of the two maps: $40 is INCW on HCS12X (`trapNumber`). -/
theorem test_illFormed_trap :
    Instr.wellFormed .hcs12 (.trap 0x2F) = false ∧ Instr.wellFormed .hcs12x (.trap 0x42) = false := by decide

/-- HCS12 has no HCS12X instruction. -/
theorem test_illFormed_hcs12xOnly :
    Instr.wellFormed .hcs12 (.gldaa (.ext 0x2000)) = false ∧ Instr.wellFormed .hcs12 .negx = false := by decide

/-- Bit 3 of the transfer and exchange postbytes is HCS12X only. -/
theorem test_illFormed_transfer :
    Instr.wellFormed .hcs12 (.tfr .a .x true) = false ∧ Instr.wellFormed .hcs12 (.exg .a .x true) = false := by decide

/-! ### Words that decode to their instructions -/

/-- Words of `opcode_table.json`, family loads stores. -/
theorem test_decode_loads_stores_1 : decodes [
    ([0x86, 0x5A], .ldaa (.imm 0x5A)),
    ([0x96, 0x40], .ldaa (.mem (.dir 0x40))),
    ([0xB6, 0x12, 0x34], .ldaa (.mem (.ext 0x1234))),
    ([0xA6, 0x45], .ldaa (.mem (.idx (.const5 .y 5)))),
    ([0xA6, 0xE9, 0x90], .ldaa (.mem (.idx (.const9 .y 0x190)))),
    ([0xA6, 0xF2, 0xBE, 0xEF], .ldaa (.mem (.idx (.const16 .sp 0xBEEF)))),
    ([0xA6, 0xEF], .ldaa (.mem (.idx (.indirectD .y)))),
    ([0xA6, 0xF3, 0x43, 0x21], .ldaa (.mem (.idx (.indirect16 .sp 0x4321)))),
    ([0xD6, 0x40], .ldab (.mem (.dir 0x40))),
    ([0xFC, 0x12, 0x34], .ldd (.mem (.ext 0x1234))),
    ([0xEF, 0xEF], .lds (.mem (.idx (.indirectD .y)))),
    ([0xCE, 0xBE, 0xEF], .ldx (.imm 0xBEEF)),
    ([0xDE, 0x40], .ldx (.mem (.dir 0x40))),
    ([0xFE, 0x12, 0x34], .ldx (.mem (.ext 0x1234))),
    ([0xEE, 0xE2, 0x12, 0x34], .ldx (.mem (.idx (.const16 .x 0x1234)))),
    ([0xDD, 0x40], .ldy (.mem (.dir 0x40))),
    ([0x5A, 0x40], .staa (.dir 0x40)),
    ([0x7B, 0x12, 0x34], .stab (.ext 0x1234)),
    ([0x5C, 0x40], .std (.dir 0x40)),
    ([0x7C, 0x12, 0x34], .std (.ext 0x1234)),
    ([0x6C, 0x9E], .std (.idx (.const5 .sp 30))),
    ([0x5F, 0x40], .sts (.dir 0x40)),
    ([0x5E, 0x40], .stx (.dir 0x40)),
    ([0x7E, 0x12, 0x34], .stx (.ext 0x1234)),
    ([0x6E, 0xF2, 0xBE, 0xEF], .stx (.idx (.const16 .sp 0xBEEF))),
    ([0x6D, 0xF9, 0x01], .sty (.idx (.const9 .pc 0x101))),
    ([0x18, 0x96, 0x40], .gldaa (.dir 0x40)),
    ([0x18, 0xF6, 0x12, 0x34], .gldab (.ext 0x1234)),
    ([0x18, 0xDC, 0x40], .gldd (.dir 0x40)),
    ([0x18, 0xFC, 0x12, 0x34], .gldd (.ext 0x1234)),
    ([0x18, 0xEC, 0xE9, 0x90], .gldd (.idx (.const9 .y 0x190))),
    ([0x18, 0xDF, 0x40], .glds (.dir 0x40)),
    ([0x18, 0xFE, 0x12, 0x34], .gldx (.ext 0x1234)),
    ([0x18, 0xED, 0xE2, 0x12, 0x34], .gldy (.idx (.const16 .x 0x1234))),
    ([0x18, 0x5A, 0x40], .gstaa (.dir 0x40)),
    ([0x18, 0x7B, 0x12, 0x34], .gstab (.ext 0x1234)),
    ([0x18, 0x6C, 0x35], .gstd (.idx (.auto .x true 5))),
    ([0x18, 0x5F, 0x40], .gsts (.dir 0x40)),
    ([0x18, 0x7E, 0x12, 0x34], .gstx (.ext 0x1234)),
    ([0x18, 0x6D, 0xFF], .gsty (.idx (.indirectD .pc)))] = true := by decide

/-- Words of `opcode_table.json`, family loads stores. -/
theorem test_decode_loads_stores_2 : decodes [
    ([0x1B, 0xEC], .leas (.acc .a .y)),
    ([0x1A, 0xE9, 0x90], .leax (.const9 .y 0x190)),
    ([0x19, 0xF2, 0xBE, 0xEF], .leay (.const16 .sp 0xBEEF)),
    ([0x69, 0xE2, 0x12, 0x34], .clr (.idx (.const16 .x 0x1234))),
    ([0x87], .clra),
    ([0xC7], .clrb),
    ([0x18, 0x79, 0x12, 0x34], .clrw (.ext 0x1234)),
    ([0x18, 0x87], .clrx),
    ([0x18, 0xC7], .clry),
    ([0x36], .psha),
    ([0x37], .pshb),
    ([0x39], .pshc),
    ([0x18, 0x39], .pshcw),
    ([0x3B], .pshd),
    ([0x34], .pshx),
    ([0x35], .pshy),
    ([0x32], .pula),
    ([0x33], .pulb),
    ([0x38], .pulc),
    ([0x18, 0x38], .pulcw),
    ([0x3A], .puld),
    ([0x30], .pulx),
    ([0x31], .puly)] = true := by decide

/-- Words of `opcode_table.json`, family moves transfers. -/
theorem test_decode_moves_transfers : decodes [
    ([0x18, 0x0B, 0x5A, 0x56, 0x78], .movb (.imm 0x5A) (.ext 0x5678)),
    ([0x18, 0x08, 0xE7, 0x5A], .movb (.imm 0x5A) (.idx (.indirectD .x))),
    ([0x18, 0x0C, 0x12, 0x34, 0x56, 0x78], .movb (.mem (.ext 0x1234)) (.ext 0x5678)),
    ([0x18, 0x09, 0xEC, 0x12, 0x34], .movb (.mem (.ext 0x1234)) (.idx (.acc .a .y))),
    ([0x18, 0x0D, 0xE0, 0x90, 0x56, 0x78], .movb (.mem (.idx (.const9 .x 0x090))) (.ext 0x5678)),
    ([0x18, 0x0A, 0xE6, 0xE2, 0x12, 0x34], .movb (.mem (.idx (.acc .d .x))) (.idx (.const16 .x 0x1234))),
    ([0x18, 0x03, 0xBE, 0xEF, 0x56, 0x78], .movw (.imm 0xBEEF) (.ext 0x5678)),
    ([0x18, 0x00, 0xF3, 0x43, 0x21, 0xBE, 0xEF], .movw (.imm 0xBEEF) (.idx (.indirect16 .sp 0x4321))),
    ([0x18, 0x04, 0x12, 0x34, 0x56, 0x78], .movw (.mem (.ext 0x1234)) (.ext 0x5678)),
    ([0x18, 0x01, 0xE9, 0x90, 0x12, 0x34], .movw (.mem (.ext 0x1234)) (.idx (.const9 .y 0x190))),
    ([0x18, 0x05, 0xF2, 0xBE, 0xEF, 0x56, 0x78], .movw (.mem (.idx (.const16 .sp 0xBEEF))) (.ext 0x5678)),
    ([0x18, 0x02, 0xDF, 0xEF], .movw (.mem (.idx (.const5 .pc 31))) (.idx (.indirectD .y))),
    ([0xB7, 0x56], .tfr .x .y false),
    ([0xB7, 0xB4], .exg .tmp .d false),
    ([0xB7, 0x04], .tfr .a .d false),
    ([0xB7, 0x07], .tfr .a .sp false),
    ([0xB7, 0x15], .tfr .b .x false),
    ([0xB7, 0x26], .tfr .ccr .y false),
    ([0xB7, 0x02], .tfr .a .ccr false),
    ([0xB7, 0x20], .tfr .ccr .a false),
    ([0xB7, 0x75], .tfr .sp .x false),
    ([0xB7, 0x76], .tfr .sp .y false),
    ([0xB7, 0x57], .tfr .x .sp false),
    ([0xB7, 0x67], .tfr .y .sp false),
    ([0xB7, 0xC5], .exg .d .x false),
    ([0xB7, 0xC6], .exg .d .y false),
    ([0x18, 0x0E], .tab),
    ([0x18, 0x0F], .tba)] = true := by decide

/-- Words of `opcode_table.json`, family add subtract. -/
theorem test_decode_add_subtract_1 : decodes [
    ([0x18, 0x06], .aba),
    ([0x1A, 0xE5], .leax (.acc .b .x)),
    ([0x19, 0xED], .leay (.acc .b .y)),
    ([0x99, 0x40], .adca (.mem (.dir 0x40))),
    ([0xF9, 0x12, 0x34], .adcb (.mem (.ext 0x1234))),
    ([0xAB, 0xE2, 0x12, 0x34], .adda (.mem (.idx (.const16 .x 0x1234)))),
    ([0xCB, 0x5A], .addb (.imm 0x5A)),
    ([0xD3, 0x40], .addd (.mem (.dir 0x40))),
    ([0x18, 0xBB, 0x12, 0x34], .addx (.mem (.ext 0x1234))),
    ([0x18, 0xEB, 0xF9, 0x01], .addy (.mem (.idx (.const9 .pc 0x101)))),
    ([0x18, 0xC3, 0xBE, 0xEF], .aded (.imm 0xBEEF)),
    ([0x18, 0x99, 0x40], .adex (.mem (.dir 0x40))),
    ([0x18, 0xF9, 0x12, 0x34], .adey (.mem (.ext 0x1234))),
    ([0x18, 0x16], .sba),
    ([0x82, 0x5A], .sbca (.imm 0x5A)),
    ([0xD2, 0x40], .sbcb (.mem (.dir 0x40))),
    ([0x18, 0xB3, 0x12, 0x34], .sbed (.mem (.ext 0x1234))),
    ([0x18, 0xA2, 0xEB, 0xFE, 0xDC], .sbex (.mem (.idx (.indirect16 .y 0xFEDC)))),
    ([0x18, 0xC2, 0xBE, 0xEF], .sbey (.imm 0xBEEF)),
    ([0x90, 0x40], .suba (.mem (.dir 0x40))),
    ([0xF0, 0x12, 0x34], .subb (.mem (.ext 0x1234))),
    ([0xA3, 0xFF], .subd (.mem (.idx (.indirectD .pc)))),
    ([0x18, 0x80, 0xBE, 0xEF], .subx (.imm 0xBEEF)),
    ([0x18, 0xD0, 0x40], .suby (.mem (.dir 0x40))),
    ([0x18, 0x07], .daa),
    ([0x62, 0xE2, 0x12, 0x34], .inc (.idx (.const16 .x 0x1234))),
    ([0x42], .inca),
    ([0x52], .incb),
    ([0x18, 0x72, 0x12, 0x34], .incw (.ext 0x1234)),
    ([0x18, 0x42], .incx),
    ([0x18, 0x52], .incy),
    ([0x08], .inx),
    ([0x02], .iny),
    ([0x1B, 0x81], .leas (.const5 .sp 1)),
    ([0x73, 0x12, 0x34], .dec (.ext 0x1234)),
    ([0x43], .deca),
    ([0x53], .decb),
    ([0x18, 0x63, 0xEB, 0xFE, 0xDC], .decw (.idx (.indirect16 .y 0xFEDC))),
    ([0x18, 0x43], .decx),
    ([0x18, 0x53], .decy)] = true := by decide

/-- Words of `opcode_table.json`, family add subtract. -/
theorem test_decode_add_subtract_2 : decodes [
    ([0x09], .dex),
    ([0x03], .dey),
    ([0x1B, 0x9F], .leas (.const5 .sp 31)),
    ([0x60, 0xEC], .neg (.idx (.acc .a .y))),
    ([0x40], .nega),
    ([0x50], .negb),
    ([0x18, 0x70, 0x12, 0x34], .negw (.ext 0x1234)),
    ([0x18, 0x40], .negx),
    ([0x18, 0x50], .negy)] = true := by decide

/-- Words of `opcode_table.json`, family compare test. -/
theorem test_decode_compare_test : decodes [
    ([0x18, 0x17], .cba),
    ([0x81, 0x5A], .cmpa (.imm 0x5A)),
    ([0xD1, 0x40], .cmpb (.mem (.dir 0x40))),
    ([0xBC, 0x12, 0x34], .cpd (.mem (.ext 0x1234))),
    ([0xAF, 0xE6], .cps (.mem (.idx (.acc .d .x)))),
    ([0x8E, 0xBE, 0xEF], .cpx (.imm 0xBEEF)),
    ([0x9D, 0x40], .cpy (.mem (.dir 0x40))),
    ([0x18, 0xBC, 0x12, 0x34], .cped (.mem (.ext 0x1234))),
    ([0x18, 0xAF, 0xEB, 0xFE, 0xDC], .cpes (.mem (.idx (.indirect16 .y 0xFEDC)))),
    ([0x18, 0x8E, 0xBE, 0xEF], .cpex (.imm 0xBEEF)),
    ([0x18, 0x9D, 0x40], .cpey (.mem (.dir 0x40))),
    ([0xF7, 0x12, 0x34], .tst (.ext 0x1234)),
    ([0x97], .tsta),
    ([0xD7], .tstb),
    ([0x18, 0xE7, 0xDF], .tstw (.idx (.const5 .pc 31))),
    ([0x18, 0x97], .tstx),
    ([0x18, 0xD7], .tsty),
    ([0x85, 0x5A], .bita (.imm 0x5A)),
    ([0xD5, 0x40], .bitb (.mem (.dir 0x40))),
    ([0x18, 0xB5, 0x12, 0x34], .bitx (.mem (.ext 0x1234))),
    ([0x18, 0xE5, 0xF9, 0x01], .bity (.mem (.idx (.const9 .pc 0x101))))] = true := by decide

/-- Words of `opcode_table.json`, family logic bit. -/
theorem test_decode_logic_bit : decodes [
    ([0x84, 0x5A], .anda (.imm 0x5A)),
    ([0xD4, 0x40], .andb (.mem (.dir 0x40))),
    ([0x18, 0xB4, 0x12, 0x34], .andx (.mem (.ext 0x1234))),
    ([0x18, 0xE4, 0x45], .andy (.mem (.idx (.const5 .y 5)))),
    ([0x8A, 0x5A], .oraa (.imm 0x5A)),
    ([0xDA, 0x40], .orab (.mem (.dir 0x40))),
    ([0x18, 0xBA, 0x12, 0x34], .orx (.mem (.ext 0x1234))),
    ([0x18, 0xEA, 0xEB, 0xFE, 0xDC], .ory (.mem (.idx (.indirect16 .y 0xFEDC)))),
    ([0x88, 0x5A], .eora (.imm 0x5A)),
    ([0xD8, 0x40], .eorb (.mem (.dir 0x40))),
    ([0x18, 0xB8, 0x12, 0x34], .eorx (.mem (.ext 0x1234))),
    ([0x18, 0xE8, 0xFF], .eory (.mem (.idx (.indirectD .pc)))),
    ([0x71, 0x12, 0x34], .com (.ext 0x1234)),
    ([0x41], .coma),
    ([0x51], .comb),
    ([0x18, 0x61, 0xE2, 0x12, 0x34], .comw (.idx (.const16 .x 0x1234))),
    ([0x18, 0x41], .comx),
    ([0x18, 0x51], .comy),
    ([0x10, 0x5A], .andcc 0x5A),
    ([0x14, 0x5A], .orcc 0x5A),
    ([0x10, 0xFE], .andcc 0xFE),
    ([0x10, 0xEF], .andcc 0xEF),
    ([0x10, 0xFD], .andcc 0xFD),
    ([0x14, 0x01], .orcc 0x01),
    ([0x14, 0x10], .orcc 0x10),
    ([0x14, 0x02], .orcc 0x02),
    ([0x0D, 0xF2, 0xBE, 0xEF, 0x81], .bclr (.idx (.const16 .sp 0xBEEF)) 0x81),
    ([0x4C, 0x40, 0x81], .bset (.dir 0x40) 0x81),
    ([0x18, 0x36, 0x12, 0x34, 0x81], .btas (.ext 0x1234) 0x81)] = true := by decide

/-- Words of `opcode_table.json`, family shift rotate. -/
theorem test_decode_shift_rotate : decodes [
    ([0x68, 0xF9, 0x01], .asl (.idx (.const9 .pc 0x101))),
    ([0x48], .asla),
    ([0x58], .aslb),
    ([0x59], .asld),
    ([0x18, 0x68, 0x6C], .aslw (.idx (.auto .y false 12))),
    ([0x18, 0x48], .aslx),
    ([0x18, 0x58], .asly),
    ([0x77, 0x12, 0x34], .asr (.ext 0x1234)),
    ([0x47], .asra),
    ([0x57], .asrb),
    ([0x18, 0x67, 0xE0, 0x90], .asrw (.idx (.const9 .x 0x090))),
    ([0x18, 0x47], .asrx),
    ([0x18, 0x57], .asry),
    ([0x78, 0x12, 0x34], .asl (.ext 0x1234)),
    ([0x74, 0x12, 0x34], .lsr (.ext 0x1234)),
    ([0x44], .lsra),
    ([0x54], .lsrb),
    ([0x49], .lsrd),
    ([0x18, 0x74, 0x12, 0x34], .lsrw (.ext 0x1234)),
    ([0x18, 0x44], .lsrx),
    ([0x18, 0x54], .lsry),
    ([0x65, 0xF5], .rol (.idx (.acc .b .sp))),
    ([0x45], .rola),
    ([0x55], .rolb),
    ([0x18, 0x75, 0x12, 0x34], .rolw (.ext 0x1234)),
    ([0x18, 0x45], .rolx),
    ([0x18, 0x55], .roly),
    ([0x66, 0xF9, 0x01], .ror (.idx (.const9 .pc 0x101))),
    ([0x46], .rora),
    ([0x56], .rorb),
    ([0x18, 0x76, 0x12, 0x34], .rorw (.ext 0x1234)),
    ([0x18, 0x46], .rorx),
    ([0x18, 0x56], .rory)] = true := by decide

/-- Words of `opcode_table.json`, family multiply divide. -/
theorem test_decode_multiply_divide : decodes [
    ([0x12], .mul),
    ([0x13], .emul),
    ([0x18, 0x13], .emuls),
    ([0x18, 0x12, 0x12, 0x34], .emacs 0x1234),
    ([0x11], .ediv),
    ([0x18, 0x14], .edivs),
    ([0x18, 0x11], .fdiv),
    ([0x18, 0x10], .idiv),
    ([0x18, 0x15], .idivs)] = true := by decide

/-- Words of `opcode_table.json`, family minmax table fuzzy. -/
theorem test_decode_minmax_table_fuzzy : decodes [
    ([0x18, 0x18, 0xF9, 0x01], .maxa (.const9 .pc 0x101)),
    ([0x18, 0x1C, 0xE2, 0x12, 0x34], .maxm (.const16 .x 0x1234)),
    ([0x18, 0x19, 0xE7], .mina (.indirectD .x)),
    ([0x18, 0x1D, 0xEB, 0xFE, 0xDC], .minm (.indirect16 .y 0xFEDC)),
    ([0x18, 0x1A, 0x6C], .emaxd (.auto .y false 12)),
    ([0x18, 0x1E, 0xE9, 0x90], .emaxm (.const9 .y 0x190)),
    ([0x18, 0x1B, 0xF2, 0xBE, 0xEF], .emind (.const16 .sp 0xBEEF)),
    ([0x18, 0x1F, 0xEF], .eminm (.indirectD .y)),
    ([0x18, 0x3D, 0xE6], .tbl (.acc .d .x)),
    ([0x18, 0x3F, 0xDF], .etbl (.const5 .pc 31)),
    ([0x01], .mem),
    ([0x18, 0x3A], .rev),
    ([0x18, 0x3B], .revw),
    ([0x18, 0x3C], .wav),
    ([0x3C], .wavr)] = true := by decide

/-- Words of `opcode_table.json`, family branch jump. -/
theorem test_decode_branch_jump_1 : decodes [
    ([0x24, 0xFC], .bcc 0xFC),
    ([0x25, 0xFC], .bcs 0xFC),
    ([0x27, 0xFC], .beq 0xFC),
    ([0x2C, 0xFC], .bge 0xFC),
    ([0x2E, 0xFC], .bgt 0xFC),
    ([0x22, 0xFC], .bhi 0xFC),
    ([0x2F, 0xFC], .ble 0xFC),
    ([0x23, 0xFC], .bls 0xFC),
    ([0x2D, 0xFC], .blt 0xFC),
    ([0x2B, 0xFC], .bmi 0xFC),
    ([0x26, 0xFC], .bne 0xFC),
    ([0x2A, 0xFC], .bpl 0xFC),
    ([0x20, 0xFC], .bra 0xFC),
    ([0x21, 0xFC], .brn 0xFC),
    ([0x28, 0xFC], .bvc 0xFC),
    ([0x29, 0xFC], .bvs 0xFC),
    ([0x18, 0x24, 0xFE, 0xDC], .lbcc 0xFEDC),
    ([0x18, 0x25, 0xFE, 0xDC], .lbcs 0xFEDC),
    ([0x18, 0x27, 0xFE, 0xDC], .lbeq 0xFEDC),
    ([0x18, 0x2C, 0xFE, 0xDC], .lbge 0xFEDC),
    ([0x18, 0x2E, 0xFE, 0xDC], .lbgt 0xFEDC),
    ([0x18, 0x22, 0xFE, 0xDC], .lbhi 0xFEDC),
    ([0x18, 0x2F, 0xFE, 0xDC], .lble 0xFEDC),
    ([0x18, 0x23, 0xFE, 0xDC], .lbls 0xFEDC),
    ([0x18, 0x2D, 0xFE, 0xDC], .lblt 0xFEDC),
    ([0x18, 0x2B, 0xFE, 0xDC], .lbmi 0xFEDC),
    ([0x18, 0x26, 0xFE, 0xDC], .lbne 0xFEDC),
    ([0x18, 0x2A, 0xFE, 0xDC], .lbpl 0xFEDC),
    ([0x18, 0x20, 0xFE, 0xDC], .lbra 0xFEDC),
    ([0x18, 0x21, 0xFE, 0xDC], .lbrn 0xFEDC),
    ([0x18, 0x28, 0xFE, 0xDC], .lbvc 0xFEDC),
    ([0x18, 0x29, 0xFE, 0xDC], .lbvs 0xFEDC),
    ([0x0F, 0xE2, 0x12, 0x34, 0x81, 0xFC], .brclr (.idx (.const16 .x 0x1234)) 0x81 0xFC),
    ([0x4E, 0x40, 0x81, 0xFC], .brset (.dir 0x40) 0x81 0xFC),
    ([0x1E, 0x12, 0x34, 0x81, 0xFC], .brset (.ext 0x1234) 0x81 0xFC),
    ([0x0E, 0xF2, 0xBE, 0xEF, 0x81, 0xFC], .brset (.idx (.const16 .sp 0xBEEF)) 0x81 0xFC),
    ([0x04, 0x11, 0xF8], .dbeq .b 0x1F8),
    ([0x04, 0x24, 0xF8], .dbne .d 0x0F8),
    ([0x04, 0x95, 0xF8], .ibeq .x 0x1F8),
    ([0x04, 0xA6, 0xF8], .ibne .y 0x0F8)] = true := by decide

/-- Words of `opcode_table.json`, family branch jump. -/
theorem test_decode_branch_jump_2 : decodes [
    ([0x04, 0x57, 0xF8], .tbeq .sp 0x1F8),
    ([0x04, 0x60, 0xF8], .tbne .a 0x0F8),
    ([0x07, 0xFC], .bsr 0xFC),
    ([0x15, 0xF9, 0x01], .jsr (.idx (.const9 .pc 0x101))),
    ([0x4A, 0x12, 0x34, 0x3C], .call (.direct (.ext 0x1234) 0x3C)),
    ([0x4B, 0xE9, 0x90, 0x3C], .call (.direct (.idx (.const9 .y 0x190)) 0x3C)),
    ([0x4B, 0xEB, 0xFE, 0xDC], .call (.indirect (.indirect16 .y 0xFEDC))),
    ([0x0A], .rtc),
    ([0x3D], .rts),
    ([0x06, 0x12, 0x34], .jmp (.ext 0x1234)),
    ([0x05, 0xE9, 0x90], .jmp (.idx (.const9 .y 0x190)))] = true := by decide

/-- Words of `opcode_table.json`, family system. -/
theorem test_decode_system : decodes [
    ([0xA7], .nop),
    ([0x00], .bgnd),
    ([0x3F], .swi),
    ([0x18, 0x30], .trap 0x30),
    ([0x0B], .rti),
    ([0x3E], .wai),
    ([0x18, 0x3E], .stop)] = true := by decide

/-! ### Words that decode to nothing -/

/-- Loop postbytes with register code 2 or 3 or operation 11x, forms an instruction does not take, transfer postbytes
with bit 3 on HCS12, a word cut short (U5 to U8). -/
theorem test_decode_refuses :
    refusedAs .hcs12x [0x04, 0x02, 0x00] .undefinedLoopPostbyte = true ∧
      refusedAs .hcs12x [0x04, 0xC0, 0x00] .undefinedLoopPostbyte = true ∧
      refusedAs .hcs12 [0xB7, 0x0D] .undefinedTransferPostbyte = true ∧
      refusedAs .hcs12 [0x18, 0x09, 0xE0, 0x10, 0x20, 0x00] .moveFormNotOnHcs12 = true ∧
      refusedAs .hcs12x [0x18, 0x3D, 0xE7] .indexFormNotAccepted = true ∧
      refusedAs .hcs12x [0x1A, 0xE7] .indexFormNotAccepted = true ∧
      refusedAs .hcs12x [0xB6, 0x12] .truncated = true := by decide

/-- HCS12 decodes the HCS12X words as the unimplemented opcode trap (R164). -/
theorem test_decode_hcs12Traps :
    (decodesAs .hcs12 [0x18, 0x40] (.trap 0x40) && decodesAs .hcs12 [0x18, 0x36] (.trap 0x36) &&
      decodesAs .hcs12 [0x18, 0xFF] (.trap 0xFF) && decodesAs .hcs12 [0x18, 0x3A] .rev) = true := by decide

/-! ### One step: the derived vectors -/

/-- V40.1, LDAA #$00. -/
theorem test_v40_1_ldaa :
    runs { variant := .hcs12 } { start with a := 0x55, ccr := 0xDB } [0x86, 0x00] []
      (fun t => t.a == 0x00 && t.pc == 0x1002 && t.ccr == 0xD5) = true := by decide

/-- V40.5, LDD $1234,X. -/
theorem test_v40_5_ldd :
    runs { variant := .hcs12x } { start with x := 0xF000 } [0xEC, 0xE2, 0x12, 0x34] [(0x0234, [0xBE, 0xEF])]
      (fun t => t.a == 0xBE && t.b == 0xEF && t.pc == 0x1004 && t.ccr == 0xD8) = true := by decide

/-- V40.6, LDAA [D,X]. -/
theorem test_v40_6_ldaa :
    runs { variant := .hcs12 } { start with b := 0x10, x := 0x3000 }
      [0xA6, 0xE7] [(0x3010, [0x40, 0x00]), (0x4000, [0x7F])]
      (fun t => t.a == 0x7F && t.pc == 0x1002 && t.ccr == 0xD0) = true := by decide

/-- V40.8, LDAA -1,X. -/
theorem test_v40_8_ldaa :
    runs { variant := .hcs12x } start [0xA6, 0x1F] [(0xFFFF, [0x99])]
      (fun t => t.a == 0x99 && t.pc == 0x1002 && t.ccr == 0xD8) = true := by decide

/-- V40.9, LDAA -128,PC. -/
theorem test_v40_9_ldaa :
    runs { variant := .hcs12 } start [0xA6, 0xF9, 0x80] [(0x0F83, [0x42])]
      (fun t => t.a == 0x42 && t.pc == 0x1003 && t.ccr == 0xD0) = true := by decide

/-- V40.11, LDAB 8,X+. -/
theorem test_v40_11_ldab :
    runs { variant := .hcs12x } { start with x := 0x3000 } [0xE6, 0x37] [(0x3000, [0x22])]
      (fun t => t.b == 0x22 && t.x == 0x3008 && t.pc == 0x1002 && t.ccr == 0xD0) = true := by decide

/-- V40.13, STD 2,-SP. -/
theorem test_v40_13_std :
    runs { variant := .hcs12 } { start with a := 0xBE, b := 0xEF } [0x6C, 0xAE] []
      (fun t => t.sp == 0x1FFE && t.pc == 0x1002 && t.ccr == 0xD8 && holds t [(0x1FFE, [0xBE,
        0xEF])]) = true := by decide

/-- V40.16, STX 2,-SP. -/
theorem test_v40_16_stx :
    runs { variant := .hcs12x } { start with x := 0x1234 } [0x6E, 0xAE] []
      (fun t => t.sp == 0x1FFE && t.pc == 0x1002 && t.ccr == 0xD0 && holds t [(0x1FFE, [0x12,
        0x34])]) = true := by decide

/-- V40.18, LEAS -4,SP. -/
theorem test_v40_18_leas :
    runs { variant := .hcs12 } start [0x1B, 0x9C] []
      (fun t => t.sp == 0x1FFC && t.pc == 0x1002 && t.ccr == 0xD0) = true := by decide

/-- V40.19, LEAX B,X. -/
theorem test_v40_19_leax :
    runs { variant := .hcs12x } { start with x := 0x1000, b := 0xFF } [0x1A, 0xE5] []
      (fun t => t.x == 0x10FF && t.pc == 0x1002 && t.ccr == 0xD0) = true := by decide

/-- V40.21, LEAX 1,Y+. -/
theorem test_v40_21_leax :
    runs { variant := .hcs12 } { start with y := 0x3000 } [0x1A, 0x70] []
      (fun t => t.x == 0x3000 && t.y == 0x3001 && t.pc == 0x1002 &&
        t.ccr == 0xD0) = true := by decide

/-- V40.23, LEAX $100,SP. -/
theorem test_v40_23_leax :
    runs { variant := .hcs12x } start [0x1A, 0xF2, 0x01, 0x00] []
      (fun t => t.x == 0x2100 && t.pc == 0x1004 && t.ccr == 0xD0) = true := by decide

/-- V40.24, CLR $3000. -/
theorem test_v40_24_clr :
    runs { variant := .hcs12 } { start with ccr := 0xDB } [0x79, 0x30, 0x00] [(0x3000, [0xFF])]
      (fun t => t.pc == 0x1003 && t.ccr == 0xD4 && holds t [(0x3000, [0x00])]) = true := by decide

/-- V40.27, PSHD. -/
theorem test_v40_27_pshd :
    runs { variant := .hcs12x } { start with a := 0x12, b := 0x34, sp := 0x0001 } [0x3B] []
      (fun t => t.sp == 0xFFFF && t.pc == 0x1001 && t.ccr == 0xD0 && holds t [(0x0000, [0x34]),
        (0xFFFF, [0x12])]) = true := by decide

/-- V40.28, PULX. -/
theorem test_v40_28_pulx :
    runs { variant := .hcs12 } { start with sp := 0x1FFE } [0x30] [(0x1FFE, [0xCA, 0xFE])]
      (fun t => t.x == 0xCAFE && t.sp == 0x2000 && t.pc == 0x1001 &&
        t.ccr == 0xD0) = true := by decide

/-- V40.29, PSHC. -/
theorem test_v40_29_pshc :
    runs { variant := .hcs12x } { start with ccr := 0xD5 } [0x39] []
      (fun t => t.sp == 0x1FFF && t.pc == 0x1001 && t.ccr == 0xD5 && holds t [(0x1FFF,
        [0xD5])]) = true := by decide

/-- V40.31, PULC. -/
theorem test_v40_31_pulc :
    runs { variant := .hcs12 } { start with sp := 0x1FFF } [0x38] [(0x1FFF, [0x00])]
      (fun t => t.sp == 0x2000 && t.pc == 0x1001 && t.ccr == 0x00) = true := by decide

/-- V40.32, PSHCW. -/
theorem test_v40_32_pshcw :
    runs { variant := .hcs12x } { start with ccr := 0xD5, ccrh := 0x03 } [0x18, 0x39] []
      (fun t => t.sp == 0x1FFE && t.pc == 0x1002 && t.ccr == 0xD5 && holds t [(0x1FFE, [0x03,
        0xD5])]) = true := by decide

/-- V40.33, PSHCW (TRAP on HCS12). -/
theorem test_v40_33_pshcw :
    runs { variant := .hcs12 } { start with ccr := 0xC5 } [0x18, 0x39] [(0xFFF8, [0x60, 0x00])]
      (fun t => t.sp == 0x1FF7 && t.pc == 0x6000 && t.ccr == 0xD5 && holds t [(0x1FF7, [0xC5, 0x00,
        0x00, 0x00, 0x00, 0x00, 0x00, 0x10, 0x02])]) = true := by decide

/-- V40.35, GLDAA $3000. -/
theorem test_v40_35_gldaa :
    runsGlobal [(0x123000, 0x80)] { variant := .hcs12x } { start with gpage := 0x12 }
      [0x18, 0xB6, 0x30, 0x00] [(0x3000, [0x11])]
      (fun t => t.a == 0x80 && t.pc == 0x1004 && t.ccr == 0xD8) = true := by decide

/-- V40.36, GSTD $3000. -/
theorem test_v40_36_gstd :
    runs { variant := .hcs12x } { start with gpage := 0x01 } [0x18, 0x7C, 0x30, 0x00] []
      (fun t => t.pc == 0x1004 && t.ccr == 0xD4 && holdsGlobal t [(0x013000, 0x00), (0x013001,
        0x00)]) = true := by decide

/-- V40.37, CLRW $3000. -/
theorem test_v40_37_clrw :
    runs { variant := .hcs12x } { start with ccr := 0xDB } [0x18, 0x79, 0x30, 0x00] [(0x3000, [0xFF, 0xFF])]
      (fun t => t.pc == 0x1004 && t.ccr == 0xD4 && holds t [(0x3000, [0x00,
        0x00])]) = true := by decide

/-- V41.2, MOVB $2000,0,X. -/
theorem test_v41_2_movb :
    runs { variant := .hcs12x } { start with x := 0x3000 } [0x18, 0x09, 0x00, 0x20, 0x00] [(0x2000, [0x7E])]
      (fun t => t.pc == 0x1005 && t.ccr == 0xD0 && holds t [(0x3000, [0x7E])]) = true := by decide

/-- V41.4, MOVB 1,X+,1,Y+. -/
theorem test_v41_4_movb :
    runs { variant := .hcs12 } { start with x := 0x3000, y := 0x3800 } [0x18, 0x0A, 0x30, 0x70] [(0x3000, [0xAA])]
      (fun t => t.x == 0x3001 && t.y == 0x3801 && t.pc == 0x1004 && t.ccr == 0xD0 &&
        holds t [(0x3800, [0xAA])]) = true := by decide

/-- V41.6, MOVB #$99,1,-SP. -/
theorem test_v41_6_movb :
    runs { variant := .hcs12x } start [0x18, 0x08, 0xAF, 0x99] []
      (fun t => t.sp == 0x1FFF && t.pc == 0x1004 && t.ccr == 0xD0 && holds t [(0x1FFF,
        [0x99])]) = true := by decide

/-- V41.7, MOVB $2000,$10,X. -/
theorem test_v41_7_movb :
    runs { variant := .hcs12x } { start with x := 0x3000 } [0x18, 0x09, 0xE0, 0x10, 0x20, 0x00] [(0x2000, [0x7E])]
      (fun t => t.pc == 0x1006 && t.ccr == 0xD0 && holds t [(0x3010, [0x7E])]) = true := by decide

/-- V41.8, MOVB $2000,$10,X: refused. -/
theorem test_v41_8_movb :
    refuses { variant := .hcs12 } { start with x := 0x3000 } [0x18, 0x09, 0xE0, 0x10, 0x20, 0x00]
      [(0x2000, [0x7E])] = true := by decide

/-- V41.10, MOVW $3000,$3001. -/
theorem test_v41_10_movw :
    runs { variant := .hcs12 } start [0x18, 0x04, 0x30, 0x00, 0x30, 0x01] [(0x3000, [0xAB, 0xCD])]
      (fun t => t.pc == 0x1006 && t.ccr == 0xD0 && holds t [(0x3001, [0xAB,
        0xCD])]) = true := by decide

/-- V41.12, MOVW 0,PC,$3000. -/
theorem test_v41_12_movw :
    runs { variant := .hcs12x } start [0x18, 0x05, 0xC0, 0x30, 0x00] [(0x1005, [0xBE, 0xEF])]
      (fun t => t.pc == 0x1005 && t.ccr == 0xD0 && holds t [(0x3000, [0xBE,
        0xEF])]) = true := by decide

/-- V41.14, TFR D,X. -/
theorem test_v41_14_tfr :
    runs { variant := .hcs12 } { start with a := 0x12, b := 0x34 } [0xB7, 0x45] []
      (fun t => t.x == 0x1234 && t.pc == 0x1002 && t.ccr == 0xD0) = true := by decide

/-- V41.15, SEX A,X. -/
theorem test_v41_15_sex :
    runs { variant := .hcs12x } { start with a := 0x80 } [0xB7, 0x05] []
      (fun t => t.x == 0xFF80 && t.pc == 0x1002 && t.ccr == 0xD0) = true := by decide

/-- V41.22, TAP. -/
theorem test_v41_22_tap :
    runs { variant := .hcs12 } start [0xB7, 0x02] []
      (fun t => t.pc == 0x1002 && t.ccr == 0x00) = true := by decide

/-- V41.24, TFR X,CCR. -/
theorem test_v41_24_tfr :
    runs { variant := .hcs12x } { start with x := 0x12EF, ccr := 0x90 } [0xB7, 0x52] []
      (fun t => t.pc == 0x1002 && t.ccr == 0xAF) = true := by decide

/-- V41.26, TXS. -/
theorem test_v41_26_txs :
    runs { variant := .hcs12 } { start with x := 0x4000 } [0xB7, 0x57] []
      (fun t => t.sp == 0x4000 && t.pc == 0x1002 && t.ccr == 0xD0) = true := by decide

/-- V41.27, XGDX. -/
theorem test_v41_27_xgdx :
    runs { variant := .hcs12x } { start with a := 0x01, b := 0x02, x := 0x0304 } [0xB7, 0xC5] []
      (fun t => t.a == 0x03 && t.b == 0x04 && t.x == 0x0102 && t.pc == 0x1002 &&
        t.ccr == 0xD0) = true := by decide

/-- V41.28, EXG A,B. -/
theorem test_v41_28_exg :
    runs { variant := .hcs12 } { start with a := 0x12, b := 0x34 } [0xB7, 0x81] []
      (fun t => t.a == 0x34 && t.b == 0x12 && t.pc == 0x1002 && t.ccr == 0xD0) = true := by decide

/-- V41.30, EXG X,A. -/
theorem test_v41_30_exg :
    runs { variant := .hcs12x } { start with a := 0x12, x := 0xABCD } [0xB7, 0xD0] []
      (fun t => t.a == 0xCD && t.x == 0x0012 && t.pc == 0x1002 && t.ccr == 0xD0) = true := by decide

/-- V41.35, EXG D,B. -/
theorem test_v41_35_exg :
    runs { variant := .hcs12 } { start with a := 0x12, b := 0x34 } [0xB7, 0xC1] []
      (fun t => t.a == 0xFF && t.pc == 0x1002 && t.ccr == 0xD0) = true := by decide

/-- V41.36, EXG D,CCR. -/
theorem test_v41_36_exg :
    runs { variant := .hcs12x } { start with a := 0x12, b := 0x85 } [0xB7, 0xC2] []
      (fun t => t.a == 0xFF && t.b == 0xD0 && t.pc == 0x1002 && t.ccr == 0x85) = true := by decide

/-- V41.38, EXG Y,Y: refused. -/
theorem test_v41_38_exg :
    refuses { variant := .hcs12 } { start with y := 0x1234 } [0xB7, 0xEE]
      [] = true := by decide

/-- V41.39, EXG Y,Y. -/
theorem test_v41_39_exg :
    runs { variant := .hcs12x } { start with y := 0x1234 } [0xB7, 0xEE] []
      (fun t => t.pc == 0x1002 && t.ccr == 0xD0) = true := by decide

/-- V41.42, SEX D,X. -/
theorem test_v41_42_sex :
    runs { variant := .hcs12x } { start with a := 0x80, x := 0x1234 } [0xB7, 0x4D] []
      (fun t => t.x == 0xFFFF && t.pc == 0x1002 && t.ccr == 0xD0) = true := by decide

/-- V41.44, TFR D,CCRW. -/
theorem test_v41_44_tfr :
    runs { variant := .hcs12x } { start with a := 0x05, b := 0xFF, ccr := 0x90 } [0xB7, 0x4A] []
      (fun t => t.ccrh == 0x05 && t.pc == 0x1002 && t.ccr == 0xBF) = true := by decide

/-- V41.46, EXG A,XH. -/
theorem test_v41_46_exg :
    runs { variant := .hcs12x } { start with a := 0x12, x := 0xABCD } [0xB7, 0x8D] []
      (fun t => t.a == 0xAB && t.x == 0x12CD && t.pc == 0x1002 && t.ccr == 0xD0) = true := by decide

/-- V41.49, TAB. -/
theorem test_v41_49_tab :
    runs { variant := .hcs12 } { start with a := 0x80, ccr := 0xD3 } [0x18, 0x0E] []
      (fun t => t.b == 0x80 && t.pc == 0x1002 && t.ccr == 0xD9) = true := by decide

/-- V42.2, ADDA #$01. -/
theorem test_v42_2_adda :
    runs { variant := .hcs12x } { start with a := 0x7F } [0x8B, 0x01] []
      (fun t => t.a == 0x80 && t.pc == 0x1002 && t.ccr == 0xFA) = true := by decide

/-- V42.3, ADDA #$01. -/
theorem test_v42_3_adda :
    runs { variant := .hcs12 } { start with a := 0xFF } [0x8B, 0x01] []
      (fun t => t.a == 0x00 && t.pc == 0x1002 && t.ccr == 0xF5) = true := by decide

/-- V42.6, ADCA #$00. -/
theorem test_v42_6_adca :
    runs { variant := .hcs12x } { start with a := 0xFF, ccr := 0xD1 } [0x89, 0x00] []
      (fun t => t.a == 0x00 && t.pc == 0x1002 && t.ccr == 0xF5) = true := by decide

/-- V42.9, SUBA #$01. -/
theorem test_v42_9_suba :
    runs { variant := .hcs12 } { start with ccr := 0xF0 } [0x80, 0x01] []
      (fun t => t.a == 0xFF && t.pc == 0x1002 && t.ccr == 0xF9) = true := by decide

/-- V42.12, SBCA #$00. -/
theorem test_v42_12_sbca :
    runs { variant := .hcs12x } { start with ccr := 0xD1 } [0x82, 0x00] []
      (fun t => t.a == 0xFF && t.pc == 0x1002 && t.ccr == 0xD9) = true := by decide

/-- V42.14, ADDD #$0001. -/
theorem test_v42_14_addd :
    runs { variant := .hcs12 } { start with a := 0x7F, b := 0xFF, ccr := 0xF0 } [0xC3, 0x00, 0x01] []
      (fun t => t.a == 0x80 && t.b == 0x00 && t.pc == 0x1003 && t.ccr == 0xFA) = true := by decide

/-- V42.17, SUBD #$0001. -/
theorem test_v42_17_subd :
    runs { variant := .hcs12x } { start with a := 0x80 } [0x83, 0x00, 0x01] []
      (fun t => t.a == 0x7F && t.b == 0xFF && t.pc == 0x1003 && t.ccr == 0xD2) = true := by decide

/-- V42.19, ABA. -/
theorem test_v42_19_aba :
    runs { variant := .hcs12 } { start with a := 0x38, b := 0x45 } [0x18, 0x06] []
      (fun t => t.a == 0x7D && t.pc == 0x1002 && t.ccr == 0xD0) = true := by decide

/-- V42.21, ABX. -/
theorem test_v42_21_abx :
    runs { variant := .hcs12x } { start with x := 0xFFFF, b := 0x02 } [0x1A, 0xE5] []
      (fun t => t.x == 0x0001 && t.pc == 0x1002 && t.ccr == 0xD0) = true := by decide

/-- V42.24, DES. -/
theorem test_v42_24_des :
    runs { variant := .hcs12 } start [0x1B, 0x9F] []
      (fun t => t.sp == 0x1FFF && t.pc == 0x1002 && t.ccr == 0xD0) = true := by decide

/-- V42.27, ADED #$0000. -/
theorem test_v42_27_aded :
    runs { variant := .hcs12x, extZMode := .plain } { start with a := 0xFF, b := 0xFF, ccr := 0xD1 }
      [0x18, 0xC3, 0x00, 0x00] []
      (fun t => t.a == 0x00 && t.b == 0x00 && t.pc == 0x1004) = true := by decide

/-- V42.28, ADED #$0000. -/
theorem test_v42_28_aded :
    runs { variant := .hcs12x, extZMode := .sticky } { start with a := 0xFF, b := 0xFF, ccr := 0xD1 }
      [0x18, 0xC3, 0x00, 0x00] []
      (fun t => t.a == 0x00 && t.b == 0x00 && t.pc == 0x1004) = true := by decide

/-- V42.29, ADED #$0000. -/
theorem test_v42_29_aded :
    runs { variant := .hcs12x, extZMode := .sticky } { start with a := 0xFF, b := 0xFF, ccr := 0xD5 }
      [0x18, 0xC3, 0x00, 0x00] []
      (fun t => t.a == 0x00 && t.b == 0x00 && t.pc == 0x1004) = true := by decide

/-- V42.34, SBED #$0000. -/
theorem test_v42_34_sbed :
    runs { variant := .hcs12x, extZMode := .plain } { start with ccr := 0xD1 } [0x18, 0x83, 0x00, 0x00] []
      (fun t => t.a == 0xFF && t.b == 0xFF && t.pc == 0x1004 && t.ccr == 0xD9) = true := by decide

/-- V42.37, ADDX (TRAP on HCS12). -/
theorem test_v42_37_addx :
    runs { variant := .hcs12 } { start with x := 0xFFFF } [0x18, 0x8B, 0x00, 0x01] [(0xFFF8, [0x60, 0x00])]
      (fun t => t.sp == 0x1FF7 && t.pc == 0x6000 && t.ccr == 0xD0 && holds t [(0x1FF7, [0xD0, 0x00,
        0x00, 0xFF, 0xFF, 0x00, 0x00, 0x10, 0x02])]) = true := by decide

/-- V42.38, DAA. -/
theorem test_v42_38_daa :
    runs { variant := .hcs12x } { start with a := 0x7D } [0x18, 0x07] []
      (fun t => t.a == 0x83 && t.pc == 0x1002) = true := by decide

/-- V42.40, DAA. -/
theorem test_v42_40_daa :
    runs { variant := .hcs12 } { start with a := 0x12, ccr := 0xF1 } [0x18, 0x07] []
      (fun t => t.a == 0x78 && t.pc == 0x1002) = true := by decide

/-- V42.44, INC $3000. -/
theorem test_v42_44_inc :
    runs { variant := .hcs12x } start [0x72, 0x30, 0x00] [(0x3000, [0x0F])]
      (fun t => t.pc == 0x1003 && t.ccr == 0xD0 && holds t [(0x3000, [0x10])]) = true := by decide

/-- V42.48, DEC 1,X+. -/
theorem test_v42_48_dec :
    runs { variant := .hcs12 } { start with x := 0x3000 } [0x63, 0x30] [(0x3000, [0x01])]
      (fun t => t.x == 0x3001 && t.pc == 0x1002 && t.ccr == 0xD4 && holds t [(0x3000,
        [0x00])]) = true := by decide

/-- V42.51, DEX. -/
theorem test_v42_51_dex :
    runs { variant := .hcs12x } { start with x := 0x0001 } [0x09] []
      (fun t => t.x == 0x0000 && t.pc == 0x1001 && t.ccr == 0xD4) = true := by decide

/-- V42.53, INCX. -/
theorem test_v42_53_incx :
    runs { variant := .hcs12x } { start with x := 0x7FFF, ccr := 0xD1 } [0x18, 0x42] []
      (fun t => t.x == 0x8000 && t.pc == 0x1002 && t.ccr == 0xDB) = true := by decide

/-- V42.56, DECW 0,X. -/
theorem test_v42_56_decw :
    runs { variant := .hcs12x } { start with x := 0x3000 } [0x18, 0x63, 0x00] [(0x3000, [0x01, 0x00])]
      (fun t => t.pc == 0x1003 && t.ccr == 0xD0 && holds t [(0x3000, [0x00,
        0xFF])]) = true := by decide

/-- V42.59, NEG $3000. -/
theorem test_v42_59_neg :
    runs { variant := .hcs12 } start [0x70, 0x30, 0x00] [(0x3000, [0x01])]
      (fun t => t.pc == 0x1003 && t.ccr == 0xD9 && holds t [(0x3000, [0xFF])]) = true := by decide

/-- V42.61, NEGW $3000. -/
theorem test_v42_61_negw :
    runs { variant := .hcs12x } start [0x18, 0x70, 0x30, 0x00] [(0x3000, [0x00, 0x01])]
      (fun t => t.pc == 0x1004 && t.ccr == 0xD9 && holds t [(0x3000, [0xFF,
        0xFF])]) = true := by decide

/-- V43.2, CBA. -/
theorem test_v43_2_cba :
    runs { variant := .hcs12x } { start with a := 0x10, b := 0x20 } [0x18, 0x17] []
      (fun t => t.pc == 0x1002 && t.ccr == 0xD9) = true := by decide

/-- V43.3, CMPA #$80. -/
theorem test_v43_3_cmpa :
    runs { variant := .hcs12 } { start with a := 0x7F } [0x81, 0x80] []
      (fun t => t.pc == 0x1002 && t.ccr == 0xDB) = true := by decide

/-- V43.6, CPX #$0001. -/
theorem test_v43_6_cpx :
    runs { variant := .hcs12x } start [0x8E, 0x00, 0x01] []
      (fun t => t.pc == 0x1003 && t.ccr == 0xD9) = true := by decide

/-- V43.8, CPS #$2000. -/
theorem test_v43_8_cps :
    runs { variant := .hcs12 } start [0x8F, 0x20, 0x00] []
      (fun t => t.pc == 0x1003 && t.ccr == 0xD4) = true := by decide

/-- V43.10, CMPA 1,X+. -/
theorem test_v43_10_cmpa :
    runs { variant := .hcs12x } { start with a := 0x41, x := 0x3000 } [0xA1, 0x30] [(0x3000, [0x41])]
      (fun t => t.x == 0x3001 && t.pc == 0x1002 && t.ccr == 0xD4) = true := by decide

/-- V43.11, CPED #$0000. -/
theorem test_v43_11_cped :
    runs { variant := .hcs12x, extZMode := .plain } { start with b := 0x01, ccr := 0xD1 }
      [0x18, 0x8C, 0x00, 0x00] []
      (fun t => t.pc == 0x1004 && t.ccr == 0xD4) = true := by decide

/-- V43.12, CPED #$0000. -/
theorem test_v43_12_cped :
    runs { variant := .hcs12x, extZMode := .sticky } { start with b := 0x01, ccr := 0xD1 }
      [0x18, 0x8C, 0x00, 0x00] []
      (fun t => t.pc == 0x1004 && t.ccr == 0xD0) = true := by decide

/-- V43.16, TST $3000. -/
theorem test_v43_16_tst :
    runs { variant := .hcs12 } { start with ccr := 0xD7 } [0xF7, 0x30, 0x00] [(0x3000, [0x80])]
      (fun t => t.pc == 0x1003 && t.ccr == 0xD8) = true := by decide

/-- V43.22, BITA #$0F. -/
theorem test_v43_22_bita :
    runs { variant := .hcs12x } { start with a := 0xF0, ccr := 0xD3 } [0x85, 0x0F] []
      (fun t => t.pc == 0x1002 && t.ccr == 0xD5) = true := by decide

/-- V43.24, BITX #$8000. -/
theorem test_v43_24_bitx :
    runs { variant := .hcs12x } { start with x := 0xFFFF, ccr := 0xD3 } [0x18, 0x85, 0x80, 0x00] []
      (fun t => t.pc == 0x1004 && t.ccr == 0xD9) = true := by decide

/-- V43.26, TSTX (TRAP on HCS12). -/
theorem test_v43_26_tstx :
    runs { variant := .hcs12 } { start with x := 0x8000 } [0x18, 0x97] [(0xFFF8, [0x60, 0x00])]
      (fun t => t.sp == 0x1FF7 && t.pc == 0x6000 && t.ccr == 0xD0 && holds t [(0x1FF7, [0xD0, 0x00,
        0x00, 0x80, 0x00, 0x00, 0x00, 0x10, 0x02])]) = true := by decide

/-- V44.2, ANDB #$80. -/
theorem test_v44_2_andb :
    runs { variant := .hcs12 } { start with b := 0xFF } [0xC4, 0x80] []
      (fun t => t.b == 0x80 && t.pc == 0x1002 && t.ccr == 0xD8) = true := by decide

/-- V44.5, EORA #$FF. -/
theorem test_v44_5_eora :
    runs { variant := .hcs12x } { start with a := 0xFF } [0x88, 0xFF] []
      (fun t => t.a == 0x00 && t.pc == 0x1002 && t.ccr == 0xD4) = true := by decide

/-- V44.9, ORY #$8000. -/
theorem test_v44_9_ory :
    runs { variant := .hcs12x } { start with y := 0x0001, ccr := 0xD3 } [0x18, 0xCA, 0x80, 0x00] []
      (fun t => t.y == 0x8001 && t.pc == 0x1004 && t.ccr == 0xD9) = true := by decide

/-- V44.16, COM $3000. -/
theorem test_v44_16_com :
    runs { variant := .hcs12 } start [0x71, 0x30, 0x00] [(0x3000, [0x55])]
      (fun t => t.pc == 0x1003 && t.ccr == 0xD9 && holds t [(0x3000, [0xAA])]) = true := by decide

/-- V44.19, COMW $3000. -/
theorem test_v44_19_comw :
    runs { variant := .hcs12x } start [0x18, 0x71, 0x30, 0x00] [(0x3000, [0x00, 0xFF])]
      (fun t => t.pc == 0x1004 && t.ccr == 0xD9 && holds t [(0x3000, [0xFF,
        0x00])]) = true := by decide

/-- V44.20, ANDCC #$AF. -/
theorem test_v44_20_andcc :
    runs { variant := .hcs12x } { start with ccr := 0xFF } [0x10, 0xAF] []
      (fun t => t.pc == 0x1002 && t.ccr == 0xAF) = true := by decide

/-- V44.24, ORCC #$FF. -/
theorem test_v44_24_orcc :
    runs { variant := .hcs12 } { start with ccr := 0x00 } [0x14, 0xFF] []
      (fun t => t.pc == 0x1002 && t.ccr == 0xBF) = true := by decide

/-- V44.29, BSET $20,#$81. -/
theorem test_v44_29_bset :
    runs { variant := .hcs12x } { start with ccr := 0xD3 } [0x4C, 0x20, 0x81] [(0x0020, [0x00])]
      (fun t => t.pc == 0x1003 && t.ccr == 0xD9 && holds t [(0x0020, [0x81])]) = true := by decide

/-- V44.34, BCLR 0,PC,#$0F. -/
theorem test_v44_34_bclr :
    runs { variant := .hcs12 } start [0x0D, 0xC0, 0x0F] []
      (fun t => t.pc == 0x1003 && t.ccr == 0xD4 && holds t [(0x1003, [0x00])]) = true := by decide

/-- V44.35, BSET [D,X],#$01: refused. -/
theorem test_v44_35_bset :
    refuses { variant := .hcs12x } { start with x := 0x3000 } [0x0C, 0xE7, 0x01]
      [] = true := by decide

/-- V44.37, BTAS $40,#$01. -/
theorem test_v44_37_btas :
    runs { variant := .hcs12x, btasFlagSource := .operand } start [0x18, 0x35, 0x40, 0x01] [(0x0040, [0x80])]
      (fun t => t.pc == 0x1004 && t.ccr == 0xD8 && holds t [(0x0040, [0x81])]) = true := by decide

/-- V44.38, BTAS $40,#$01. -/
theorem test_v44_38_btas :
    runs { variant := .hcs12x, btasFlagSource := .masked } start [0x18, 0x35, 0x40, 0x01] [(0x0040, [0x80])]
      (fun t => t.pc == 0x1004 && t.ccr == 0xD4 && holds t [(0x0040, [0x81])]) = true := by decide

/-- V45.2, ASLA. -/
theorem test_v45_2_asla :
    runs { variant := .hcs12 } { start with a := 0x80 } [0x48] []
      (fun t => t.a == 0x00 && t.pc == 0x1001 && t.ccr == 0xD7) = true := by decide

/-- V45.5, ASLD. -/
theorem test_v45_5_asld :
    runs { variant := .hcs12x } { start with a := 0x40 } [0x59] []
      (fun t => t.a == 0x80 && t.pc == 0x1001 && t.ccr == 0xDA) = true := by decide

/-- V45.6, LSLD. -/
theorem test_v45_6_lsld :
    runs { variant := .hcs12 } { start with a := 0x80, b := 0x01 } [0x59] []
      (fun t => t.a == 0x00 && t.b == 0x02 && t.pc == 0x1001 && t.ccr == 0xD3) = true := by decide

/-- V45.12, ASRB. -/
theorem test_v45_12_asrb :
    runs { variant := .hcs12x } { start with b := 0x01 } [0x57] []
      (fun t => t.b == 0x00 && t.pc == 0x1001 && t.ccr == 0xD7) = true := by decide

/-- V45.13, ASR $3000. -/
theorem test_v45_13_asr :
    runs { variant := .hcs12 } start [0x77, 0x30, 0x00] [(0x3000, [0x80])]
      (fun t => t.pc == 0x1003 && t.ccr == 0xDA && holds t [(0x3000, [0xC0])]) = true := by decide

/-- V45.16, ASRW 0,X. -/
theorem test_v45_16_asrw :
    runs { variant := .hcs12x } { start with x := 0x3000 } [0x18, 0x67, 0x00] [(0x3000, [0xFF, 0xFE])]
      (fun t => t.pc == 0x1003 && t.ccr == 0xDA && holds t [(0x3001, [0xFF])]) = true := by decide

/-- V45.20, LSRD. -/
theorem test_v45_20_lsrd :
    runs { variant := .hcs12x } { start with b := 0x01 } [0x49] []
      (fun t => t.b == 0x00 && t.pc == 0x1001 && t.ccr == 0xD7) = true := by decide

/-- V45.25, ROLA. -/
theorem test_v45_25_rola :
    runs { variant := .hcs12 } { start with a := 0x80 } [0x45] []
      (fun t => t.a == 0x00 && t.pc == 0x1001 && t.ccr == 0xD7) = true := by decide

/-- V45.32, RORA. -/
theorem test_v45_32_rora :
    runs { variant := .hcs12x } { start with a := 0x01 } [0x46] []
      (fun t => t.a == 0x00 && t.pc == 0x1001 && t.ccr == 0xD7) = true := by decide

/-- V45.38, RORW 1,X+. -/
theorem test_v45_38_rorw :
    runs { variant := .hcs12x } { start with x := 0x3000 } [0x18, 0x66, 0x30] [(0x3000, [0x00, 0x01])]
      (fun t => t.x == 0x3001 && t.pc == 0x1003 && t.ccr == 0xD7 && holds t [(0x3001,
        [0x00])]) = true := by decide

/-- V46.1, MUL. -/
theorem test_v46_1_mul :
    runs { variant := .hcs12 } { start with a := 0x0C, b := 0x0B, ccr := 0xDE } [0x12] []
      (fun t => t.a == 0x00 && t.b == 0x84 && t.pc == 0x1001 && t.ccr == 0xDF) = true := by decide

/-- V46.6, EMUL. -/
theorem test_v46_6_emul :
    runs { variant := .hcs12x } { start with a := 0x12, b := 0x34, ccr := 0xD9 } [0x13] []
      (fun t => t.a == 0x00 && t.b == 0x00 && t.pc == 0x1001 && t.ccr == 0xD4) = true := by decide

/-- V46.9, EMULS. -/
theorem test_v46_9_emuls :
    runs { variant := .hcs12 } { start with a := 0x80, y := 0x8000 } [0x18, 0x13] []
      (fun t => t.a == 0x00 && t.y == 0x4000 && t.pc == 0x1002 && t.ccr == 0xD0) = true := by decide

/-- V46.12, EMACS $3000. -/
theorem test_v46_12_emacs :
    runs { variant := .hcs12x } { start with x := 0x3100, y := 0x3200 }
      [0x18, 0x12, 0x30, 0x00] [(0x3000, [0x00, 0x00, 0xFF, 0xFF]), (0x3100, [0x00, 0x01]), (0x3200,
        [0x00, 0x01])]
      (fun t => t.pc == 0x1004 && t.ccr == 0xD1 && holds t [(0x3001, [0x01, 0x00,
        0x00])]) = true := by decide

/-- V46.15, EDIV. -/
theorem test_v46_15_ediv :
    runs { variant := .hcs12 } { start with b := 0x07, x := 0x0002 } [0x11] []
      (fun t => t.b == 0x01 && t.y == 0x0003 && t.pc == 0x1001 && t.ccr == 0xD0) = true := by decide

/-- V46.16, EDIV. -/
theorem test_v46_16_ediv :
    runs { variant := .hcs12x } { start with y := 0x0002, x := 0x0002 } [0x11] []
      (fun t => t.pc == 0x1001) = true := by decide

/-- V46.18, EDIVS. -/
theorem test_v46_18_edivs :
    runs { variant := .hcs12 } { start with y := 0xFFFF, a := 0xFF, b := 0xF9, x := 0x0002 } [0x18, 0x14] []
      (fun t => t.b == 0xFF && t.y == 0xFFFD && t.pc == 0x1002 && t.ccr == 0xD8) = true := by decide

/-- V46.20, EDIVS. -/
theorem test_v46_20_edivs :
    runs { variant := .hcs12x } { start with a := 0x80, x := 0x0001 } [0x18, 0x14] []
      (fun t => t.pc == 0x1002) = true := by decide

/-- V46.24, FDIV. -/
theorem test_v46_24_fdiv :
    runs { variant := .hcs12 } { start with b := 0x01, x := 0x0003 } [0x18, 0x11] []
      (fun t => t.x == 0x5555 && t.pc == 0x1002 && t.ccr == 0xD0) = true := by decide

/-- V46.26, FDIV. -/
theorem test_v46_26_fdiv :
    runs { variant := .hcs12x } { start with b := 0x05, x := 0x0005 } [0x18, 0x11] []
      (fun t => t.x == 0xFFFF && t.pc == 0x1002 && t.ccr == 0xD2) = true := by decide

/-- V46.29, IDIV. -/
theorem test_v46_29_idiv :
    runs { variant := .hcs12 } { start with b := 0x03, x := 0x0010 } [0x18, 0x10] []
      (fun t => t.x == 0x0000 && t.pc == 0x1002 && t.ccr == 0xD4) = true := by decide

/-- V46.31, IDIVS. -/
theorem test_v46_31_idivs :
    runs { variant := .hcs12x } { start with a := 0xFF, b := 0xF9, x := 0x0002 } [0x18, 0x15] []
      (fun t => t.b == 0xFF && t.x == 0xFFFD && t.pc == 0x1002 && t.ccr == 0xD8) = true := by decide

/-- V46.33, IDIVS. -/
theorem test_v46_33_idivs :
    runs { variant := .hcs12 } { start with b := 0x07 } [0x18, 0x15] []
      (fun t => t.pc == 0x1002) = true := by decide

/-- V47.2, MAXA 0,X. -/
theorem test_v47_2_maxa :
    runs { variant := .hcs12x } { start with a := 0x80, x := 0x3000 } [0x18, 0x18, 0x00] [(0x3000, [0x7F])]
      (fun t => t.pc == 0x1003 && t.ccr == 0xD2) = true := by decide

/-- V47.5, MAXM 0,X. -/
theorem test_v47_5_maxm :
    runs { variant := .hcs12 } { start with a := 0x40, x := 0x3000 } [0x18, 0x1C, 0x00] [(0x3000, [0x30])]
      (fun t => t.pc == 0x1003 && t.ccr == 0xD0 && holds t [(0x3000, [0x40])]) = true := by decide

/-- V47.8, EMIND 0,X. -/
theorem test_v47_8_emind :
    runs { variant := .hcs12x } { start with a := 0x80, x := 0x3000 } [0x18, 0x1B, 0x00] [(0x3000, [0x7F, 0xFF])]
      (fun t => t.a == 0x7F && t.b == 0xFF && t.pc == 0x1003 && t.ccr == 0xD2) = true := by decide

/-- V47.10, EMINM 0,X. -/
theorem test_v47_10_eminm :
    runs { variant := .hcs12 } { start with b := 0x01, x := 0x3000 } [0x18, 0x1F, 0x00] [(0x3000, [0x00, 0x02])]
      (fun t => t.pc == 0x1003 && t.ccr == 0xD9 && holds t [(0x3001, [0x01])]) = true := by decide

/-- V47.13, TBL 0,X. -/
theorem test_v47_13_tbl :
    runs { variant := .hcs12x } { start with b := 0x40, x := 0x3000 } [0x18, 0x3D, 0x00] [(0x3000, [0x20, 0x10])]
      (fun t => t.a == 0x1C && t.pc == 0x1003 && t.ccr == 0xD0) = true := by decide

/-- V47.17, TBL $10,X: refused. -/
theorem test_v47_17_tbl :
    refuses { variant := .hcs12 } { start with b := 0x80, x := 0x3000 } [0x18, 0x3D, 0xE0, 0x10]
      [] = true := by decide

/-- V47.18, ETBL 0,X. -/
theorem test_v47_18_etbl :
    runs { variant := .hcs12x } { start with b := 0x80, x := 0x3000 }
      [0x18, 0x3F, 0x00] [(0x3000, [0x10, 0x00, 0x20, 0x00])]
      (fun t => t.a == 0x18 && t.b == 0x00 && t.pc == 0x1003 && t.ccr == 0xD0) = true := by decide

/-- V47.21, MEM. -/
theorem test_v47_21_mem :
    runs { variant := .hcs12 } { start with a := 0x40, x := 0x3000, y := 0x3800 }
      [0x01] [(0x3000, [0x20, 0x80, 0x08, 0x04])]
      (fun t => t.x == 0x3004 && t.y == 0x3801 && t.pc == 0x1001 && holds t [(0x3800,
        [0xFF])]) = true := by decide

/-- V47.24, MEM. -/
theorem test_v47_24_mem :
    runs { variant := .hcs12x } { start with a := 0x10, x := 0x3000, y := 0x3800 }
      [0x01] [(0x3000, [0x20, 0x80, 0x08, 0x04]), (0x3800, [0x55])]
      (fun t => t.x == 0x3004 && t.y == 0x3801 && t.pc == 0x1001 && holds t [(0x3800,
        [0x00])]) = true := by decide

/-- V47.26, REV. -/
theorem test_v47_26_rev :
    runs { variant := .hcs12 } { start with a := 0xFF, x := 0x4000, y := 0x3000 }
      [0x18, 0x3A] [(0x3000, [0x40, 0x90, 0x20]), (0x4000, [0x00, 0x01, 0xFE, 0x02, 0xFF])]
      (fun t => t.a == 0x40 && t.x == 0x4005 && t.pc == 0x1002 && holds t [(0x3002,
        [0x40])]) = true := by decide

/-- V47.28, REVW. -/
theorem test_v47_28_revw :
    runs { variant := .hcs12x } { start with a := 0xFF, x := 0x4000 }
      [0x18, 0x3B] [(0x3000, [0x40, 0x90, 0x20]), (0x4000, [0x30, 0x00, 0x30, 0x01, 0xFF, 0xFE,
        0x30, 0x02, 0xFF, 0xFF])]
      (fun t => t.a == 0x40 && t.x == 0x400A && t.pc == 0x1002 && holds t [(0x3002,
        [0x40])]) = true := by decide

/-- V47.30, WAV. -/
theorem test_v47_30_wav :
    runs { variant := .hcs12 } { start with b := 0x02, x := 0x3000, y := 0x3800 }
      [0x18, 0x3C] [(0x3000, [0x10, 0x20]), (0x3800, [0x03, 0x05])]
      (fun t => t.b == 0xD0 && t.x == 0x0008 && t.y == 0x0000 && t.pc == 0x1002) = true := by decide

/-- V48.1, BRA *. -/
theorem test_v48_1_bra :
    runs { variant := .hcs12x } start [0x20, 0xFE] []
      (fun t => t.pc == 0x1000 && t.ccr == 0xD0) = true := by decide

/-- V48.3, BRA *-126. -/
theorem test_v48_3_bra :
    runs { variant := .hcs12 } start [0x20, 0x80] []
      (fun t => t.pc == 0x0F82 && t.ccr == 0xD0) = true := by decide

/-- V48.5, BRN. -/
theorem test_v48_5_brn :
    runs { variant := .hcs12x } start [0x21, 0x10] []
      (fun t => t.pc == 0x1002 && t.ccr == 0xD0) = true := by decide

/-- V48.7, BEQ. -/
theorem test_v48_7_beq :
    runs { variant := .hcs12 } start [0x27, 0x10] []
      (fun t => t.pc == 0x1002 && t.ccr == 0xD0) = true := by decide

/-- V48.17, BHI. -/
theorem test_v48_17_bhi :
    runs { variant := .hcs12x } { start with ccr := 0xD4 } [0x22, 0x10] []
      (fun t => t.pc == 0x1002 && t.ccr == 0xD4) = true := by decide

/-- V48.20, BLT. -/
theorem test_v48_20_blt :
    runs { variant := .hcs12 } { start with ccr := 0xD8 } [0x2D, 0x10] []
      (fun t => t.pc == 0x1012 && t.ccr == 0xD8) = true := by decide

/-- V48.23, BLE. -/
theorem test_v48_23_ble :
    runs { variant := .hcs12x } { start with ccr := 0xD2 } [0x2F, 0x10] []
      (fun t => t.pc == 0x1012 && t.ccr == 0xD2) = true := by decide

/-- V48.24, LBRA. -/
theorem test_v48_24_lbra :
    runs { variant := .hcs12 } start [0x18, 0x20, 0xF0, 0x00] []
      (fun t => t.pc == 0x0004 && t.ccr == 0xD0) = true := by decide

/-- V48.28, LBLT. -/
theorem test_v48_28_lblt :
    runs { variant := .hcs12x } { start with ccr := 0xD2 } [0x18, 0x2D, 0xFF, 0xFC] []
      (fun t => t.pc == 0x1000 && t.ccr == 0xD2) = true := by decide

/-- V48.29, BRSET $20,#$81,*+9. -/
theorem test_v48_29_brset :
    runs { variant := .hcs12 } start [0x4E, 0x20, 0x81, 0x05] [(0x0020, [0xFF])]
      (fun t => t.pc == 0x1009 && t.ccr == 0xD0) = true := by decide

/-- V48.32, BRCLR $3000,#$01,*. -/
theorem test_v48_32_brclr :
    runs { variant := .hcs12x } start [0x1F, 0x30, 0x00, 0x01, 0xFB] [(0x3000, [0x00])]
      (fun t => t.pc == 0x1000 && t.ccr == 0xD0) = true := by decide

/-- V48.34, BRCLR 0,X,#$00,*+20. -/
theorem test_v48_34_brclr :
    runs { variant := .hcs12 } { start with x := 0x3000 } [0x0F, 0x00, 0x00, 0x10] [(0x3000, [0xFF])]
      (fun t => t.pc == 0x1014 && t.ccr == 0xD0) = true := by decide

/-- V48.35, DBNE B,*-2. -/
theorem test_v48_35_dbne :
    runs { variant := .hcs12x } { start with b := 0x02 } [0x04, 0x31, 0xFB] []
      (fun t => t.b == 0x01 && t.pc == 0x0FFE && t.ccr == 0xD0) = true := by decide

/-- V48.40, IBEQ D,*+19. -/
theorem test_v48_40_ibeq :
    runs { variant := .hcs12 } { start with a := 0xFF, b := 0xFF } [0x04, 0x84, 0x10] []
      (fun t => t.a == 0x00 && t.b == 0x00 && t.pc == 0x1013 && t.ccr == 0xD0) = true := by decide

/-- V48.42, TBNE SP,*-13. -/
theorem test_v48_42_tbne :
    runs { variant := .hcs12x } start [0x04, 0x77, 0xF0] []
      (fun t => t.pc == 0x0FF3 && t.ccr == 0xD0) = true := by decide

/-- V48.44, DBNE (reg code 2): refused. -/
theorem test_v48_44_dbne :
    refuses { variant := .hcs12 } start [0x04, 0x22, 0x10]
      [] = true := by decide

/-- V48.46, BSR *+18. -/
theorem test_v48_46_bsr :
    runs { variant := .hcs12x } start [0x07, 0x10] []
      (fun t => t.sp == 0x1FFE && t.pc == 0x1012 && t.ccr == 0xD0 && holds t [(0x1FFE, [0x10,
        0x02])]) = true := by decide

/-- V48.50, JSR [0,X]. -/
theorem test_v48_50_jsr :
    runs { variant := .hcs12 } { start with x := 0x3000 } [0x15, 0xE3, 0x00, 0x00] [(0x3000, [0x50, 0x00])]
      (fun t => t.sp == 0x1FFE && t.pc == 0x5000 && t.ccr == 0xD0 && holds t [(0x1FFE, [0x10,
        0x04])]) = true := by decide

/-- V48.51, JSR 2,-SP. -/
theorem test_v48_51_jsr :
    runs { variant := .hcs12x } start [0x15, 0xAE] []
      (fun t => t.sp == 0x1FFC && t.pc == 0x1FFE && t.ccr == 0xD0 && holds t [(0x1FFC, [0x10,
        0x02])]) = true := by decide

/-- V48.54, CALL $8000,$05. -/
theorem test_v48_54_call :
    runs { variant := .hcs12 } { start with pc := 0x4000, ppage := 0x02 } [0x4A, 0x80, 0x00, 0x05] []
      (fun t => t.sp == 0x1FFD && t.ppage == 0x05 && t.pc == 0x8000 && t.ccr == 0xD0 &&
        holds t [(0x1FFD, [0x02, 0x40, 0x04])]) = true := by decide

/-- V48.56, CALL [$10,X]. -/
theorem test_v48_56_call :
    runs { variant := .hcs12x } { start with pc := 0x4000, x := 0x3000, ppage := 0x01 }
      [0x4B, 0xE3, 0x00, 0x10] [(0x3010, [0x90, 0x00, 0x07])]
      (fun t => t.sp == 0x1FFD && t.ppage == 0x07 && t.pc == 0x9000 && t.ccr == 0xD0 &&
        holds t [(0x1FFD, [0x01, 0x40, 0x04])]) = true := by decide

/-- V48.58, RTC. -/
theorem test_v48_58_rtc :
    runs { variant := .hcs12 } { start with sp := 0x1FFD } [0x0A] [(0x1FFD, [0x02, 0x40, 0x04])]
      (fun t => t.sp == 0x2000 && t.ppage == 0x02 && t.pc == 0x4004 &&
        t.ccr == 0xD0) = true := by decide

/-- V48.61, JMP [D,X]. -/
theorem test_v48_61_jmp :
    runs { variant := .hcs12x } { start with b := 0x02, x := 0x3000 } [0x05, 0xE7] [(0x3002, [0x12, 0x34])]
      (fun t => t.pc == 0x1234 && t.ccr == 0xD0) = true := by decide

/-- V49.1, NOP. -/
theorem test_v49_1_nop :
    runs { variant := .hcs12 } start [0xA7] []
      (fun t => t.pc == 0x1001 && t.ccr == 0xD0) = true := by decide

/-- V49.3, BGND. -/
theorem test_v49_3_bgnd :
    runs { variant := .hcs12x, bdmEnabled := false } start [0x00] []
      (fun t => t.pc == 0x1001 && t.ccr == 0xD0) = true := by decide

/-- V49.4, BGND. -/
theorem test_v49_4_bgnd :
    runs { variant := .hcs12, bdmEnabled := true } start [0x00] []
      (fun t => t.pc == 0x1001 && t.ccr == 0xD0 && t.runState == .background) = true := by decide

/-- V49.5, SWI. -/
theorem test_v49_5_swi :
    runs { variant := .hcs12 } { start with a := 0x55, b := 0x66, x := 0x3344, y := 0x1122, ccr := 0xC1 }
      [0x3F] [(0xFFF6, [0xE0, 0x00])]
      (fun t => t.sp == 0x1FF7 && t.pc == 0xE000 && t.ccr == 0xD1 && holds t [(0x1FF7, [0xC1, 0x66,
        0x55, 0x33, 0x44, 0x11, 0x22, 0x10, 0x01])]) = true := by decide

/-- V49.6, SWI. -/
theorem test_v49_6_swi :
    runs { variant := .hcs12x } { start with a := 0x55, b := 0x66, x := 0x3344, y := 0x1122, ccr := 0xC1, ccrh := 0x05 }
      [0x3F] [(0xFFF6, [0xE0, 0x00])]
      (fun t => t.sp == 0x1FF6 && t.pc == 0xE000 && t.ccr == 0xD1 && holds t [(0x1FF6, [0x05, 0xC1,
        0x66, 0x55, 0x33, 0x44, 0x11, 0x22, 0x10, 0x01])]) = true := by decide

/-- V49.8, TRAP. -/
theorem test_v49_8_trap :
    runs { variant := .hcs12 } { start with ccr := 0xC0 } [0x18, 0x30] [(0xFFF8, [0xF0, 0x00])]
      (fun t => t.sp == 0x1FF7 && t.pc == 0xF000 && t.ccr == 0xD0 && holds t [(0x1FF7, [0xC0, 0x00,
        0x00, 0x00, 0x00, 0x00, 0x00, 0x10, 0x02])]) = true := by decide

/-- V49.10, TRAP. -/
theorem test_v49_10_trap :
    runs { variant := .hcs12 } { start with ccr := 0xC0 } [0x18, 0xFF] [(0xFFF8, [0xF0, 0x00])]
      (fun t => t.sp == 0x1FF7 && t.pc == 0xF000 && t.ccr == 0xD0 && holds t [(0x1FF7, [0xC0, 0x00,
        0x00, 0x00, 0x00, 0x00, 0x00, 0x10, 0x02])]) = true := by decide

/-- V49.15, RTI. -/
theorem test_v49_15_rti :
    runs { variant := .hcs12 } { start with sp := 0x1FF7 }
      [0x0B] [(0x1FF7, [0xC1, 0x66, 0x55, 0x33, 0x44, 0x11, 0x22, 0x10, 0x01])]
      (fun t => t.a == 0x55 && t.b == 0x66 && t.x == 0x3344 && t.y == 0x1122 && t.sp == 0x2000 &&
        t.pc == 0x1001 && t.ccr == 0xC1) = true := by decide

/-- V49.16, RTI. -/
theorem test_v49_16_rti :
    runs { variant := .hcs12 } { start with sp := 0x1FF7, ccr := 0x90 }
      [0x0B] [(0x1FF7, [0xC1, 0x66, 0x55, 0x33, 0x44, 0x11, 0x22, 0x10, 0x01])]
      (fun t => t.a == 0x55 && t.b == 0x66 && t.x == 0x3344 && t.y == 0x1122 && t.sp == 0x2000 &&
        t.pc == 0x1001 && t.ccr == 0x81) = true := by decide

/-- V49.18, RTI. -/
theorem test_v49_18_rti :
    runs { variant := .hcs12x, ccrhWmask := 0xFF } { start with sp := 0x1FF6 }
      [0x0B] [(0x1FF6, [0x07, 0xC1, 0x66, 0x55, 0x33, 0x44, 0x11, 0x22, 0x10, 0x01])]
      (fun t => t.a == 0x55 && t.b == 0x66 && t.x == 0x3344 && t.y == 0x1122 && t.sp == 0x2000 &&
        t.ccrh == 0x07 && t.pc == 0x1001 && t.ccr == 0xC1) = true := by decide

/-- V49.22, WAI. -/
theorem test_v49_22_wai :
    runs { variant := .hcs12x } { start with a := 0x55, b := 0x66, x := 0x3344, y := 0x1122, ccr := 0xC0, ccrh := 0x02 }
      [0x3E] []
      (fun t => t.sp == 0x1FF6 && t.pc == 0x1001 && t.ccr == 0xC0 && holds t [(0x1FF6, [0x02, 0xC0,
        0x66, 0x55, 0x33, 0x44, 0x11, 0x22, 0x10, 0x01])] &&
        t.runState == .waiting) = true := by decide

/-- V49.23, STOP. -/
theorem test_v49_23_stop :
    runs { variant := .hcs12x } start [0x18, 0x3E] []
      (fun t => t.pc == 0x1002 && t.ccr == 0xD0) = true := by decide

/-- V49.24, STOP. -/
theorem test_v49_24_stop :
    runs { variant := .hcs12 } { start with a := 0x55, b := 0x66, x := 0x3344, y := 0x1122, ccr := 0x50 }
      [0x18, 0x3E] []
      (fun t => t.sp == 0x1FF7 && t.pc == 0x1002 && t.ccr == 0x50 && holds t [(0x1FF7, [0x50, 0x66,
        0x55, 0x33, 0x44, 0x11, 0x22, 0x10, 0x02])] &&
        t.runState == .stopped) = true := by decide

/-! ### One boundary: the asynchronous events -/

/-- The vectors of the E rows: IRQ $5000, XIRQ $5800, reset $C000, device $FFD6 $5400. -/
def vectors : List (Word × List Byte) :=
  [(0xFFF2, [0x50, 0x00]), (0xFFF4, [0x58, 0x00]), (0xFFFE, [0xC0, 0x00]), (0xFFD6, [0x54, 0x00])]

/-- The device source with vector $FFD6. -/
def deviceD6 : Request := .device 107

/-- A boundary of the E rows: the registers, the pending requests, every source present. -/
def boundary (v : Variant) (pending : List Request) (s : State) : State :=
  filled { s with pending := pending, params := { variant := v, irqSources := [.xirq, .irq, deviceD6] } } vectors

/-- E1: IRQ on HCS12. -/
theorem test_e1_irq :
    stepGives (boundary .hcs12 [.irq] { start with a := 0x55, b := 0x66, x := 0x3344, y := 0x1122, ccr := 0xC1 })
      (fun t => t.sp == 0x1FF7 && t.pc == 0x5000 && t.ccr == 0xD1 &&
        holds t [(0x1FF7, [0xC1, 0x66, 0x55, 0x33, 0x44, 0x11, 0x22, 0x10, 0x00])]) = true := by decide

/-- E2: IRQ on HCS12X. -/
theorem test_e2_irq :
    stepGives (boundary .hcs12x [.irq] { start with a := 0x55, b := 0x66, x := 0x3344, y := 0x1122, ccr := 0xC1 })
      (fun t => t.sp == 0x1FF6 && t.pc == 0x5000 && t.ccr == 0xD1 &&
        holds t [(0x1FF6, [0x00, 0xC1, 0x66, 0x55, 0x33, 0x44, 0x11, 0x22, 0x10, 0x00])]) = true := by decide

/-- E3: a masked IRQ; NOP runs. -/
theorem test_e3_masked :
    stepGives (filled (boundary .hcs12 [.irq] start) [(0x1000, [0xA7])])
      (fun t => t.pc == 0x1001 && t.ccr == 0xD0 && t.pending == [.irq]) = true := by decide

/-- E4: XIRQ with XM = 0. -/
theorem test_e4_xirq :
    stepGives (boundary .hcs12 [.xirq] { start with ccr := 0x90 })
      (fun t => t.sp == 0x1FF7 && t.pc == 0x5800 && t.ccr == 0xD0 && holds t [(0x1FF7, [0x90]), (0x1FFE, [0x10])]) =
      true := by decide

/-- E5: a masked XIRQ; NOP runs. -/
theorem test_e5_masked :
    stepGives (filled (boundary .hcs12x [.xirq] { start with ccr := 0xC0 }) [(0x1000, [0xA7])])
      (fun t => t.pc == 0x1001 && t.ccr == 0xC0) = true := by decide

/-- E6: XIRQ before IRQ. -/
theorem test_e6_priority :
    stepGives (boundary .hcs12 [.irq, .xirq] { start with ccr := 0x80 })
      (fun t => t.pc == 0x5800 && t.ccr == 0xD0 && t.sp == 0x1FF7) = true := by decide

/-- E7: IRQ before the device at $FFD6. -/
theorem test_e7_priority :
    stepGives (boundary .hcs12 [deviceD6, .irq] { start with ccr := 0x80 })
      (fun t => t.pc == 0x5000 && t.ccr == 0x90) = true := by decide

/-- E8: the device at $FFD6. -/
theorem test_e8_device :
    stepGives (boundary .hcs12x [deviceD6] { start with ccr := 0xC0 })
      (fun t => t.pc == 0x5400 && t.ccr == 0xD0 && t.sp == 0x1FF6) = true := by decide

/-- E9: reset. -/
theorem test_e9_reset :
    stepGives (boundary .hcs12x [.por] { start with a := 0x12, b := 0x34, sp := 0x1234, ccr := 0x0F })
      (fun t => t.pc == 0xC000 && t.ccr == 0xDF && t.sp == 0x1234 && t.pending == []) = true := by decide

/-- E10: an IRQ ends WAI without stacking. -/
theorem test_e10_wake :
    stepGives (boundary .hcs12 [.irq] { start with sp := 0x1FF7, pc := 0x1001, ccr := 0xC0, runState := .waiting })
      (fun t => t.pc == 0x5000 && t.ccr == 0xD0 && t.sp == 0x1FF7 && t.runState == .running) = true := by decide

/-- E11: a masked IRQ leaves WAI waiting. -/
theorem test_e11_waits :
    stepGives (boundary .hcs12 [.irq] { start with sp := 0x1FF7, pc := 0x1001, ccr := 0x90, runState := .waiting })
      (fun t => t.pc == 0x1001 && t.ccr == 0x90 && t.runState == .waiting) = true := by decide

/-- E12: XIRQ ends WAI. -/
theorem test_e12_wake :
    stepGives
      (boundary .hcs12 [.irq, .xirq] { start with sp := 0x1FF7, pc := 0x1001, ccr := 0x90, runState := .waiting })
      (fun t => t.pc == 0x5800 && t.ccr == 0xD0 && t.runState == .running) = true := by decide

/-- E13: a masked XIRQ goes on after STOP. -/
theorem test_e13_continue :
    stepGives (boundary .hcs12 [.xirq] { start with sp := 0x1FF7, pc := 0x1002, ccr := 0x40, runState := .stopped })
      (fun t => t.pc == 0x1002 && t.ccr == 0x40 && t.sp == 0x2000 && t.runState == .running) = true := by decide

/-- E14: an IRQ ends STOP through its vector. -/
theorem test_e14_wake :
    stepGives (boundary .hcs12 [.irq] { start with sp := 0x1FF7, pc := 0x1002, ccr := 0x40, runState := .stopped })
      (fun t => t.pc == 0x5000 && t.ccr == 0x50 && t.sp == 0x1FF7 && t.runState == .running) = true := by decide

/-- E15: a pending IRQ is taken before the SWI at PC. -/
theorem test_e15_beforeSwi :
    stepGives (filled (boundary .hcs12 [.irq] { start with ccr := 0xC0 }) [(0x1000, [0x3F])])
      (fun t => t.pc == 0x5000 && t.ccr == 0xD0 && holds t [(0x1FF7, [0xC0]), (0x1FFE, [0x10, 0x00])]) = true := by
  decide

/-- WAV over three elements with an enabled IRQ at its second comma: two elements done, six bytes pushed, PC at the
byte $3C (R565, R566, R675). -/
theorem test_wavInterrupted :
    stepGives (filled { start with b := 3, x := 0x3000, y := 0x3100, ccr := 0xC0, arrival := some (1, .irq) }
        [(0x1000, [0x18, 0x3C])])
      (fun t => t.b == 1 && t.x == 0x3002 && t.y == 0x3102 && t.sp == 0x1FFA && t.pc == 0x1001 &&
        t.pending == [.irq]) = true := by decide

/-- A word of the opcode table placed where the next step fetches: `18 06` is ABA. -/
theorem test_withFetchWord :
    stepGives ({ start with a := 0x7F, b := 0x01 }.withFetchWord 16 0x1806) (fun t => t.a == 0x80 && t.pc == 0x1002) =
      true := by decide

/-! ### States that meet the hypotheses of the obligations -/

/-- The start state is a good state. -/
theorem start_inv : start.Inv := ⟨by decide, by decide, by decide⟩

/-- So is the one on HCS12. -/
theorem startHcs12_inv : startHcs12.Inv := ⟨by decide, by decide, by decide⟩

/-- Nothing asks for attention in it. -/
theorem start_quiet : start.Quiet := ⟨⟨rfl, by decide, by decide⟩, by decide⟩

/-- Without regions and windows every address is plain memory. -/
theorem start_flat : start.Flat := fun _ => rfl

/-- Any bytes of it are plain memory. -/
theorem start_plain (addr : Word) (n : Nat) : start.PlainRam addr n := fun _ _ => rfl

theorem witness_DecodeOfEncodeIsTheInstruction :
    Instr.wellFormed .hcs12 (.movb (.imm 0x55) (.idx (.const5 .x 31))) = true ∧
      Instr.isAlias (.movb (.imm 0x55) (.idx (.const5 .x 31))) = false ∧
      Instr.wellFormed .hcs12x (.movw (.mem (.idx (.indirect16 .pc 0xFFFF))) (.idx (.const16 .sp 0))) = true := by decide

theorem witness_DecodedBytesAreTheEncoding : decode .hcs12 [0x18, 0xFF, 0x00] = .ok (.trap 0xFF, [0x00]) := by rfl

theorem witness_AliasesAreTheirInstruction : Instr.isAlias (.sex .ccr .sp) = true ∧ Instr.isAlias .des = true := by decide

/-- `BRA *` at $1000: the step is Quiet, decodes, and runs. -/
theorem witness_StepRunsTheDecodedInstruction :
    (filled start [(0x1000, [0x20, 0xFE])]).Quiet ∧
      decode .hcs12x (filled start [(0x1000, [0x20, 0xFE])]).fetchBytes = .ok (.bra 0xFE, [0, 0, 0, 0, 0, 0]) ∧
      (∃ t, exec (.bra 0xFE) ((filled start [(0x1000, [0x20, 0xFE])]).fetched 2) = .next t) :=
  ⟨⟨⟨rfl, by decide, by decide⟩, by decide⟩, rfl, _, rfl⟩

/-- A word that wraps from $FFFF to $0000. -/
theorem witness_InstructionInMemoryRuns :
    let s := filled { start with pc := 0xFFFF } [(0xFFFF, [0x20, 0xFE])]
    s.Quiet ∧ s.queue = [] ∧ Instr.wellFormed s.params.variant (.bra 0xFE) = true ∧ Instr.isAlias (.bra 0xFE) = false ∧
      s.NoDevice s.pc 2 ∧ s.Holds s.pc (encode (.bra 0xFE)) := by
  refine ⟨⟨⟨rfl, by decide, by decide⟩, by decide⟩, rfl, rfl, rfl, fun _ _ _ => Place.noConfusion, ?_⟩
  intro k h
  match k, h with
  | 0, _ => rfl
  | 1, _ => rfl
  | n + 2, h => exact absurd h (Nat.not_lt.2 (Nat.le_add_left 2 n))

/-- `04 02 00`: the loop postbyte has no register (R141). -/
theorem witness_StepRefusesOnlyUndefinedEncodings :
    step (filled start [(0x1000, [0x04, 0x02])]) = .refused (.undefinedEncoding .undefinedLoopPostbyte) := by rfl

theorem witness_EveryInstructionCompletes :
    ({ start with ccr := 0x90 } : State).flag .x = false ∧ ({ start with ccr := 0x90 } : State).Inv :=
  ⟨by decide, start_inv.mem, start_inv.gmem, start_inv.gpage⟩

theorem witness_Hcs12xInstructionsTrapOnHcs12 :
    startHcs12.Inv ∧ Instr.hcs12xOnly (.gldaa (.ext 0x3000)) = true ∧ Instr.hcs12xOnly .negx = true ∧
      startHcs12.params.variant = .hcs12 := ⟨startHcs12_inv, rfl, rfl, rfl⟩

theorem witness_StepKeepsTheInvariant : start.Inv ∧ ∃ t, step start = .next t := ⟨start_inv, _, rfl⟩

theorem witness_OnlyResetOrXirqSetsTheXMask :
    (∃ t, step (boundary .hcs12 [.xirq] { start with ccr := 0x90 }) = .next t ∧ t.flag .x = true) ∧
      (∃ t, step (boundary .hcs12 [.por] { start with ccr := 0x90 }) = .next t ∧ t.flag .x = true) ∧
      (boundary .hcs12 [.xirq] { start with ccr := 0x90 }).flag .x = false :=
  ⟨⟨_, rfl, rfl⟩, ⟨_, rfl, rfl⟩, rfl⟩

theorem witness_ResetIsTaken :
    (boundary .hcs12 [.cop, .por] start).nextReset = some .por ∧
      (boundary .hcs12 [.cop, .irq] start).nextReset = some .cop ∧
      (boundary .hcs12 [.clockMonitor, .cop] start).nextReset = some .clockMonitor := by decide

/-- A reset that arrives in the middle of an instruction, of the entry to an interrupt, of a wait, of a stop and in
Background; elements of `ResetValues` given and not given. -/
theorem witness_ResetIsTaken_arriving :
    let s := filled { start with arrival := some (0, .cop) } [(0x1000, [0x7A, 0x30, 0x00])]
    s.runState = .running ∧ s.nextReset = none ∧ s.nextInterrupt = none ∧ s.arrivingReset = some (0, .cop) ∧ s.Inv ∧
      decode s.params.variant s.fetchBytes = .ok (.staa (.ext 0x3000), [0, 0, 0, 0, 0]) ∧
      hasCommas (.staa (.ext 0x3000)) = false ∧
      (boundary .hcs12 [.irq] { s with ccr := 0xC0 }).nextInterrupt = some .irq ∧
      ({ s with runState := .waiting } : State).arrivingReset = some (0, .cop) ∧
      ({ s with runState := .stopped } : State).Inv ∧ ({ s with runState := .background } : State).Inv ∧
      s.FrameClear ∧ (pushStages s 0x1003)[0]? = some (s.push16 0x1003) ∧ (pushStages s 0x1003)[3]?.isSome = true ∧
      ({ a := some 1 } : ResetValues).a = some 1 ∧ ({ a := some 1 } : ResetValues).gpage = none :=
  ⟨rfl, by decide, by decide, rfl, ⟨by decide, by decide, by decide⟩, rfl, rfl, by decide, rfl,
    ⟨by decide, by decide, by decide⟩, ⟨by decide, by decide, by decide⟩, fun _ _ => Place.noConfusion, rfl, rfl, rfl,
    rfl⟩

theorem witness_VectorsAreWhereTheSpecPutsThem :
    kindIn start.params.memMap (0xFFFE#16).toNat = .ram ∧ kindIn start.params.memMap (0xFFFE#16 + 1).toNat = .ram := by
  decide

/-- Each clause: the three resets, a request behind a masked one, and nothing enabled. -/
theorem witness_RecognitionOrder :
    let s := boundary .hcs12 [.xirq, .irq] { start with ccr := 0x40 }
    s.params.irqSources = [.xirq] ++ .irq :: [deviceD6] ∧ isResetRequest .irq = false ∧ .irq ∈ s.pending ∧
      s.enabled .irq = true ∧ (∀ q ∈ [Request.xirq], isResetRequest q = false → q ∈ s.pending → s.enabled q = false) ∧
      start.nextInterrupt = none := by decide

theorem witness_InterruptIsTakenBetweenInstructions :
    let s := boundary .hcs12 [.irq] { start with ccr := 0xC0 }
    s.Inv ∧ s.runState = .running ∧ s.nextReset = none ∧ s.arrivingReset = none ∧ s.nextInterrupt = some .irq :=
  ⟨⟨by decide, by decide, by decide⟩, rfl, by decide, by decide, by decide⟩

theorem witness_SoftwareExceptionsEnter : startHcs12.Inv ∧ start.Inv ∧ startHcs12.FrameClear ∧ start.FrameClear :=
  ⟨startHcs12_inv, start_inv, fun _ _ => Place.noConfusion, fun _ _ => Place.noConfusion⟩

theorem witness_RtiPullsTheFrame : startHcs12.params.variant = .hcs12 ∧ start.params.variant = .hcs12x := ⟨rfl, rfl⟩

/-- SP = $0003: the frame wraps from $0000 to $FFFF. -/
theorem witness_RtiUndoesTheEntry :
    let s := boundary .hcs12 [.irq] { start with ccr := 0xC0, sp := 3 }
    s.Inv ∧ s.runState = .running ∧ s.PlainRam (s.sp - frameSize s.params.variant) (frameSize s.params.variant).toNat ∧
      s.nextReset = none ∧ s.arrivingReset = none ∧ s.nextInterrupt = some .irq :=
  ⟨⟨by decide, by decide, by decide⟩, rfl, fun _ _ => rfl, by decide, by decide, by decide⟩

theorem witness_WaiAndStopStackAndWait :
    start.Inv ∧ start.flag .s = true ∧ ({ start with ccr := 0x50 } : State).flag .s = false :=
  ⟨start_inv, by decide, by decide⟩

/-- Waiting with an enabled IRQ, Stopped with a masked XIRQ, Stopped with nothing. -/
theorem witness_WaitingAndStoppedEnd :
    let w := boundary .hcs12 [.irq] { start with ccr := 0xC0, runState := .waiting }
    let p := boundary .hcs12 [.xirq] { start with ccr := 0x40, runState := .stopped }
    let q := boundary .hcs12 [] { start with ccr := 0x40, runState := .stopped }
    (w.nextReset = none ∧ w.arrivingReset = none ∧ w.runState = .waiting ∧ w.nextInterrupt = some .irq) ∧
      (p.nextReset = none ∧ p.arrivingReset = none ∧ p.runState = .stopped ∧ p.nextInterrupt = none ∧
        .xirq ∈ p.pending ∧
        .xirq ∈ p.params.irqSources) ∧
      (q.nextInterrupt = none ∧ ¬ (.xirq ∈ q.pending ∧ .xirq ∈ q.params.irqSources)) := by decide

theorem witness_NopAndBackground :
    start.params.bdmEnabled = false ∧
      ({ start with params := { bdmEnabled := true } } : State).params.bdmEnabled = true ∧
      ({ start with runState := .background } : State).nextReset = none ∧
      ({ start with runState := .background } : State).arrivingReset = none := by decide

/-- The last address: the second byte is at $0000. -/
theorem witness_WordsAreBigEndianAndTheStackGrowsDown :
    start.Inv ∧ start.PlainRam 0xFFFF 2 ∧ start.PlainRam (start.sp - 1) 1 ∧ start.PlainRam (start.sp - 2) 2 :=
  ⟨start_inv, start_plain _ _, start_plain _ _, start_plain _ _⟩

theorem witness_EffectiveAddresses :
    autoModified (.acc .d .pc) = none ∧ autoModified (.indirectD .x) = none ∧ (0#4).toNat < 8 ∧
      (7#4).toNat < 8 ∧ ¬ (8#4).toNat < 8 := by decide

/-- A platform with two overlapping regions, two overlapping page windows, of which one is for some pages only, a
`GlobalTranslate` that leaves page $20 out of the addresses, and two overlapping global windows. -/
def platform : State :=
  { start with
    ppage := 0x20, gpage := 0x7F
    params :=
      { memMap := [⟨0x0030, 0x0030, .ppageReg⟩, ⟨0x0000, 0x03FF, .device⟩, ⟨0xC000, 0xFFFF, .rom⟩]
        pageWindows := [⟨0x8000, 0xBFFF, 0, 0, 0xFF, 0xFF⟩, ⟨0x8000, 0xBFFF, 0x400000, 0x4000, 0, 255⟩]
        globalTranslate := [⟨0x200000, 0x20FFFF, 0⟩, ⟨0x200000, 0x21FFFF, 0x300000⟩]
        globalWindows := [⟨0x7FC000, 0x7FFFFF, .logical 0xC000⟩, ⟨0x7F0000, 0x7FFFFF, .globalStore .device 0x10000⟩] } }

/-- The ends of each clause: an address that the first region holds, one that the second holds first, one in no region;
both ends of the page window that the first window does not hold for this page, and the addresses beside them; the ends
of the translate windows; both ends of the two global windows. -/
theorem witness_PagedAndGlobalPlaces :
    platform.Inv ∧
      FirstHolding (InRegion 0x0030) platform.params.memMap ⟨0x0030, 0x0030, .ppageReg⟩ ∧
      FirstHolding (InRegion 0x03FF) platform.params.memMap ⟨0x0000, 0x03FF, .device⟩ ∧
      (∀ g ∈ platform.params.memMap, ¬ InRegion 0x0400 g) ∧
      FirstHolding (InPageWindow 0x20 0x8000) platform.params.pageWindows ⟨0x8000, 0xBFFF, 0x400000, 0x4000, 0, 255⟩ ∧
      FirstHolding (InPageWindow 0xFF 0xBFFF) platform.params.pageWindows ⟨0x8000, 0xBFFF, 0, 0, 0xFF, 0xFF⟩ ∧
      (∀ w ∈ platform.params.pageWindows, ¬ InPageWindow 0x20 0xC000 w) ∧
      FirstHolding (InTranslateWindow 0x20FFFF) platform.params.globalTranslate ⟨0x200000, 0x20FFFF, 0⟩ ∧
      FirstHolding (InTranslateWindow 0x210000) platform.params.globalTranslate ⟨0x200000, 0x21FFFF, 0x300000⟩ ∧
      (∀ w ∈ platform.params.globalTranslate, ¬ InTranslateWindow 0x220000 w) ∧
      FirstHolding (InGlobalWindow 0x7FFFFF) platform.params.globalWindows ⟨0x7FC000, 0x7FFFFF, .logical 0xC000⟩ ∧
      FirstHolding (InGlobalWindow 0x7FBFFF) platform.params.globalWindows
        ⟨0x7F0000, 0x7FFFFF, .globalStore .device 0x10000⟩ ∧
      (∀ w ∈ platform.params.globalWindows, ¬ InGlobalWindow 0x7EFFFF w) := by
  refine ⟨⟨by decide, by decide, by decide⟩, ⟨[], _, rfl, ?_⟩, ⟨[_], _, rfl, ?_⟩, ?_, ⟨[_], _, rfl, ?_⟩,
    ⟨[], _, rfl, ?_⟩, ?_, ⟨[], _, rfl, ?_⟩, ⟨[_], _, rfl, ?_⟩, ?_, ⟨[], _, rfl, ?_⟩, ⟨[_], _, rfl, ?_⟩, ?_⟩ <;>
    simp [platform, InRegion, InPageWindow, InTranslateWindow, InGlobalWindow]

/-- Where accesses go on that platform: a device register, PPAGE, the second page window, ROM, and the same two through
the global space. -/
theorem test_places :
    platform.place 0x0010 = .device 0x0010 ∧ platform.place 0x0030 = .ppageReg ∧
      platform.place 0x8001 = .cell (0x400000 + 0x20 * 0x4000 + 1) ∧ platform.place 0xFFFF = .rom 0xFFFF ∧
      platform.globalPlaceAt 0xC000 0 = .rom 0xC000 ∧ platform.globalPlaceAt 0xFFFF 0 = .rom 0xFFFF ∧
      platform.globalPlaceAt 0x0000 0 = .device 0x10000 := by decide

/-- With GPAGE = $20, whose addresses this platform translates to themselves, the second byte of a word at $FFFF is at
$10000, one after its first byte, and not at the translation of $21:0000 (R10, R84). -/
theorem test_globalWordOverTranslation :
    { platform with gpage := 0x20 }.globalAddress 0xFFFF 0 = 0xFFFF ∧
      { platform with gpage := 0x20 }.globalPlaceAt 0xFFFF 1 = .globalCell 0x10000 ∧
      { platform with gpage := 0x21 }.globalPlaceAt 0x0000 0 = .globalCell 0x310000 := by decide

/-- The second byte of the last global word is the location after the space (log entry 7). -/
theorem test_lastGlobalWord : { start with gpage := 0x7F }.globalPlaceAt 0xFFFF 1 = .globalCell 0x800000 := by decide

/-- A store into the next instruction byte may leave the old byte in the queue; a branch to the very next instruction
refills it (R91, R711). -/
theorem test_branchToNextRefills :
    stepGives (filled start [(0x1000, [0x7A, 0x10, 0x03])]) (fun t => t.queue == []) = true ∧
      stepGives (filled { start with a := 0x55 } [(0x1000, [0x7A, 0x10, 0x03])])
        (fun t => t.queue == [(0x1003, 0x00)]) = true ∧
      stepGives { filled start [(0x1000, [0x20, 0x00])] with queue := [(0x1002, 0x11)] }
        (fun t => t.pc == 0x1002 && t.queue == []) = true := by decide

/-- A reset in the middle of a wait and in Background: Running, with nothing in the queue and at its vector (R662). -/
theorem test_resetInTheMiddle :
    stepGives (filled { start with runState := .waiting, arrival := some (0, .cop) } [(0xFFFA, [0x12, 0x34])])
        (fun t => t.runState == .running && t.arrival == none && t.queue == []) = true ∧
      stepGives (filled { start with runState := .background, arrival := some (0, .cop) } [(0xFFFA, [0x12, 0x34])])
        (fun t => t.pc == 0x1234 && t.runState == .running) = true := by decide

/-- The words a frame has in memory after each of its pushes, one by one; and after the first word of EMACS (R92). -/
theorem test_storesComeInOrder :
    let s := { start with sp := 0x3000, y := 0x1122, x := 0x3344 }
    (pushStages s 0x5566).map (fun u => (u.read16 0x2FFE, u.read16 0x2FFC, u.read16 0x2FFA)) =
        [(0x5566, 0, 0), (0x5566, 0x1122, 0), (0x5566, 0x1122, 0x3344), (0x5566, 0x1122, 0x3344)] ∧
      (betweenStores (.staa (.ext 0x3000)) s).length = 0 ∧ (betweenStores .swi s).length = 4 ∧
      (emacsStages 0x3000 (filled { start with x := 0x2000, y := 0x2002 } [(0x2000, [0x01, 0x00, 0x01, 0x01])])).map
        (fun u => (u.read16 0x3000, u.read16 0x3002)) = [(0x0001, 0)] := by decide

/-- A reset in the middle of STAA $3000 is taken within it (R662). -/
theorem test_resetInMidInstruction :
    ∃ t, step (filled { start with arrival := some (0, .cop) } [(0x1000, [0x7A, 0x30, 0x00])]) = .next t ∧
      t.runState = .running ∧ t.arrival = none ∧ t.pending = [] := ⟨_, rfl, rfl, rfl, rfl⟩

/-- The base register kept, and auto-modified (U9). -/
theorem witness_StoresWriteTheRegister :
    start.Inv ∧ eaModified (.ext 0x3000) ≠ some .sp ∧ eaModified (.idx (.auto .sp false 14)) = some .sp :=
  ⟨start_inv, by decide, by decide⟩

theorem witness_GlobalLoadsAndStores : start.Inv ∧ start.params.variant = .hcs12x := ⟨start_inv, rfl⟩

theorem witness_EffectiveAddressLoads :
    autoModified (.const5 .sp 1) ≠ some .sp ∧ autoModified (.auto .y true 0) ≠ some .x ∧
      autoModified (.auto .x true 0) = some .x := by decide

theorem witness_ClearsLeaveZero : start.Inv ∧ start.params.variant = .hcs12x := ⟨start_inv, rfl⟩

/-- SP = $0001: the pushed word wraps. -/
theorem witness_PushesStoreBelowTheStackPointer :
    ({ start with sp := 1 } : State).Inv ∧ start.params.variant = .hcs12x :=
  ⟨⟨by decide, by decide, by decide⟩, rfl⟩

theorem witness_PullsTakeFromTheStackPointer : start.params.variant = .hcs12x := rfl

theorem witness_MovesCopyMemory : start.Inv := start_inv

theorem witness_TransfersFollowTheTables : start.params.variant = .hcs12x := rfl

theorem witness_ExchangesFollowTheTables : start.params.variant = .hcs12x := rfl

theorem witness_WordAdditions : start.params.variant = .hcs12x := rfl

theorem witness_Subtractions : start.params.variant = .hcs12x := rfl

theorem witness_IncrementsAndDecrements : start.Inv ∧ start.params.variant = .hcs12x := ⟨start_inv, rfl⟩

theorem witness_Compares : start.params.variant = .hcs12x := rfl

theorem witness_TestsAndBitTests : start.params.variant = .hcs12x := rfl

theorem witness_LogicalOperations : start.params.variant = .hcs12x := rfl

theorem witness_NegationsAndComplements : start.Inv ∧ start.params.variant = .hcs12x := ⟨start_inv, rfl⟩

theorem witness_MemoryBitInstructions : start.Inv ∧ start.params.variant = .hcs12x := ⟨start_inv, rfl⟩

theorem witness_ShiftsAndRotates : start.Inv ∧ start.params.variant = .hcs12x := ⟨start_inv, rfl⟩

theorem witness_Multiplications : start.Inv := start_inv

/-- The last quotient that fits and the first that does not, signed and unsigned, and the largest dividend of FDIV. -/
theorem witness_Divisions :
    ((65535 * 2 + 1) / 2 ≤ 65535 ∧ 65535 < (65536 * 2) / 2) ∧
      ((32767 * 2 : Int).tdiv 2 ≤ 32767 ∧ 32767 < (32768 * 2 : Int).tdiv 2 ∧ -32768 ≤ (65536 : Int).tdiv (-2) ∧
        (65538 : Int).tdiv (-2) < -32768) ∧
      ((0xFFFE#16).toNat < (0xFFFF#16).toNat ∧ (0xFFFF#16).toNat ≤ (0xFFFF#16).toNat) := by decide

theorem witness_MinimaAndMaxima : start.Inv := start_inv

theorem witness_MembershipGrade : start.Inv := start_inv

/-- The rule "input 1, output 2" for REV, the list at $4000 and the fuzzy values at $3000. -/
def ruleState : State :=
  filled { start with a := 0xFF, x := 0x4000, y := 0x3000 } [(0x4000, [0x01, 0xFE, 0x02, 0xFF])]

/-- The rule "input $3001, output $3002" for REVW, with weights at $5000. -/
def wideRuleState : State :=
  filled { start with a := 0xFF, x := 0x4000, y := 0x5000, ccr := 0xD1 }
    [(0x4000, [0x30, 0x01, 0xFF, 0xFE, 0x30, 0x02, 0xFF, 0xFF]), (0x5000, [0x7F])]

/-- The list of REV is in memory and its output lies outside it. -/
theorem witness_RuleEvaluation :
    ruleState.Inv ∧ ruleState.Flat ∧ ruleState.arrival = none ∧ ruleState.flag .v = false ∧
      (∀ e ∈ [0x01#8] ++ [0x02#8], e.toNat < 0xFE) ∧
      ruleState.Holds ruleState.x ([0x01#8] ++ 0xFE#8 :: [0x02#8] ++ [0xFF#8]) ∧
      (∀ o ∈ [0x02#8], ∀ k, k < 1 + 1 + 2 → ruleState.x + BitVec.ofNat 16 k ≠ ruleState.y + zext8 o) := by
  refine ⟨⟨rfl, rfl, by decide⟩, fun _ => rfl, rfl, rfl, by decide, ?_, ?_⟩
  rotate_left
  · have far : ∀ k < 4, 0x4000#16 + BitVec.ofNat 16 k ≠ 0x3000#16 + zext8 0x02#8 := by decide
    intro o ho k hk
    rw [List.mem_singleton.1 ho]
    exact far k hk
  intro k h
  match k, h with
  | 0, _ => rfl
  | 1, _ => rfl
  | 2, _ => rfl
  | 3, _ => rfl
  | n + 4, h => exact absurd h (by simp)

/-- The same for REVW. -/
theorem witness_RuleEvaluation_words :
    wideRuleState.Inv ∧ wideRuleState.Flat ∧ wideRuleState.flag .v = false ∧
      (∀ e ∈ [0x3001#16] ++ [0x3002#16], e.toNat < 0xFFFE) ∧
      wideRuleState.HoldsWords wideRuleState.x ([0x3001#16] ++ 0xFFFE#16 :: [0x3002#16] ++ [0xFFFF#16]) ∧
      (∀ o ∈ [0x3002#16], ∀ k, k < 2 * (1 + 1 + 2) → wideRuleState.x + BitVec.ofNat 16 k ≠ o) := by
  refine ⟨⟨rfl, rfl, by decide⟩, fun _ => rfl, rfl, by simp, ?_, ?_⟩
  rotate_left
  · have far : ∀ k < 8, 0x4000#16 + BitVec.ofNat 16 k ≠ 0x3002#16 := by decide
    intro o ho k hk
    rw [List.mem_singleton.1 ho]
    exact far k hk
  intro k h
  match k, h with
  | 0, _ => rfl
  | 1, _ => rfl
  | 2, _ => rfl
  | 3, _ => rfl
  | n + 4, h => exact absurd h (by simp)

/-- A WAV over three elements with an enabled IRQ that arrives at its second comma. -/
def averageState : State :=
  filled { start with b := 3, x := 0x3000, y := 0x3100, ccr := 0xC0, arrival := some (1, .irq) }
    [(0x3000, [1, 2, 3]), (0x3100, [4, 5, 6])]

theorem witness_WeightedAverage :
    averageState.Inv ∧ averageState.Flat ∧ averageState.arrival = some (1, .irq) ∧
      averageState.interruptible .irq = true ∧ 1 + 1 < averageState.b.toNat ∧
      (∀ j m, 1 ≤ j → j ≤ 6 → m < averageState.b.toNat →
        averageState.sp - BitVec.ofNat 16 j ≠ averageState.x + BitVec.ofNat 16 m ∧
          averageState.sp - BitVec.ofNat 16 j ≠ averageState.y + BitVec.ofNat 16 m) := by
  refine ⟨⟨rfl, rfl, by decide⟩, fun _ => rfl, rfl, rfl, by decide, ?_⟩
  intro j m h1 h2 h3
  have hm : m < 3 := h3
  have : ∀ j < 7, ∀ m < 3, (0x2000#16 - BitVec.ofNat 16 j ≠ 0x3000#16 + BitVec.ofNat 16 m ∧
      0x2000#16 - BitVec.ofNat 16 j ≠ 0x3100#16 + BitVec.ofNat 16 m) := by decide
  exact this j (by omega) m hm

theorem witness_JumpsCallsAndReturns : start.Inv := start_inv

end Sys2Proof.Tests
end

/-! PROOFS. The scope family: what stays over an operation, the lists of the platform, words and the stack, and what a
step adds to an instruction. -/

namespace Sys2Proof.Machine

/-! ### `Unchanged` as a relation -/

theorem Part.same_refl (p : Part) (s : State) : p.same s s := by cases p <;> rfl

theorem Part.same_trans {p : Part} {s t u : State} (h : p.same s t) (h' : p.same t u) : p.same s u := by
  cases p <;> exact Eq.trans h' h

theorem Unchanged.refl (except : List Part) (s : State) : Unchanged except s s := fun p _ => p.same_refl s

theorem Unchanged.trans {except : List Part} {s t u : State} (h : Unchanged except s t) (h' : Unchanged except t u) :
    Unchanged except s u :=
  fun p hp => Part.same_trans (h p hp) (h' p hp)

theorem Unchanged.mono {few many : List Part} {s t : State} (h : Unchanged few s t) (hsub : few ⊆ many) :
    Unchanged many s t :=
  fun p hp => h p fun hf => hp (hsub hf)

theorem Unchanged.sameMemory {except : List Part} {s t : State} (h : Unchanged except s t)
    (hex : ∀ p ∈ [Part.mem, .gmem, .devices, .ppage, .gpage, .fresh, .params], p ∉ except) : SameMemory s t :=
  ⟨h .mem (hex _ (by simp)), h .gmem (hex _ (by simp)), h .devices (hex _ (by simp)), h .ppage (hex _ (by simp)),
    h .gpage (hex _ (by simp)), h .fresh (hex _ (by simp)), h .params (hex _ (by simp))⟩

/-- A read changes the devices at most (R93). -/
theorem State.accessed_unchanged (s : State) (p : Place) : Unchanged [.devices] s (s.accessed p) := by
  intro q hq
  cases q with
  | devices => simp at hq
  | _ => simp [Part.same]

theorem State.touched8_unchanged (s : State) (addr : Word) : Unchanged [.devices] s (s.touched8 addr) :=
  s.accessed_unchanged _

/-! ### The lists of the platform: the first entry that holds decides (D3, D4, D5) -/

/-- A search that takes the first entry that holds, and a default at the end of the list. -/
structure FindsFirst {α β : Type} (look : List α → β) (holds : α → Prop) [DecidablePred holds] (found : α → β)
    (default : β) : Prop where
  nil : look [] = default
  cons : ∀ x rest, look (x :: rest) = if holds x then found x else look rest

section Lists

variable {α β : Type} {look : List α → β} {holds : α → Prop} [DecidablePred holds] {found : α → β} {default : β}

theorem FindsFirst.of_none (h : FindsFirst look holds found default) {xs : List α} (hx : ∀ x ∈ xs, ¬ holds x) :
    look xs = default := by
  induction xs with
  | nil => exact h.nil
  | cons x rest ih =>
    rw [h.cons, if_neg (hx x List.mem_cons_self)]
    exact ih fun y hy => hx y (List.mem_cons_of_mem _ hy)

theorem FindsFirst.of_first (h : FindsFirst look holds found default) {xs : List α} {x : α}
    (hx : FirstHolding holds xs x) : look xs = found x := by
  obtain ⟨first, later, rfl, hholds, hfirst⟩ := hx
  induction first with
  | nil => rw [List.nil_append, h.cons, if_pos hholds]
  | cons y rest ih =>
    rw [List.cons_append, h.cons, if_neg (hfirst y List.mem_cons_self)]
    exact ih fun z hz => hfirst z (List.mem_cons_of_mem _ hz)

end Lists

theorem kindIn_findsFirst (addr : Nat) :
    FindsFirst (kindIn · addr) (fun g => g.lo ≤ addr ∧ addr ≤ g.hi) Region.kind .ram :=
  ⟨rfl, fun _ _ => rfl⟩

theorem pageLocation_findsFirst (page : Byte) (addr : Nat) :
    FindsFirst (pageLocation · page addr) (fun w => windowHolds w page addr = true)
      (fun w => w.base + page.toNat * w.size + (addr - w.lo)) addr :=
  ⟨rfl, fun _ _ => rfl⟩

theorem translateGlobal_findsFirst (c : Nat) :
    FindsFirst (translateGlobal · c) (fun w => w.lo ≤ c ∧ c ≤ w.hi) (fun w => w.base + (c - w.lo)) c :=
  ⟨rfl, fun _ _ => rfl⟩

theorem globalPlace_findsFirst (s : State) (g : Nat) :
    FindsFirst (s.globalPlace · g) (fun w => w.lo ≤ g ∧ g ≤ w.hi) (fun w => s.targetPlace w.target (g - w.lo))
      (.globalCell g) :=
  ⟨rfl, fun _ _ => rfl⟩

theorem inPageWindow_iff (page : Byte) (addr : Nat) (w : PageWindow) :
    InPageWindow page addr w ↔ windowHolds w page addr = true := by
  simp [InPageWindow, windowHolds, and_assoc]

theorem inPageWindow_eq (page : Byte) (addr : Nat) :
    InPageWindow page addr = fun w => windowHolds w page addr = true :=
  funext fun w => propext (inPageWindow_iff page addr w)

/-- Plain memory and PPAGE give back the byte last written. -/
theorem State.getPlace_putPlace_same {s : State} (h : s.Inv) {p : Place} (v : Byte)
    (hp : p = .ppageReg ∨ ∃ n, p = .cell n ∨ p = .globalCell n) : (s.putPlace p v).getPlace p = v := by
  obtain rfl | ⟨n, rfl | rfl⟩ := hp
  · rfl
  · exact memGet_memSet_same h.mem
  · exact memGet_memSet_same h.gmem

theorem State.place_of_first_window (s : State) (addr : Word) (w : PageWindow)
    (hw : FirstHolding (InPageWindow s.ppage addr.toNat) s.params.pageWindows w) :
    s.place addr = placeOf (kindIn s.params.memMap addr.toNat)
      (w.base + s.ppage.toNat * w.size + (addr.toNat - w.lo)) addr.toNat := by
  rw [inPageWindow_eq] at hw
  rw [State.place, (pageLocation_findsFirst s.ppage addr.toNat).of_first hw]

theorem State.place_of_no_window (s : State) (addr : Word)
    (hw : ∀ w ∈ s.params.pageWindows, ¬ InPageWindow s.ppage addr.toNat w) :
    s.place addr = placeOf (kindIn s.params.memMap addr.toNat) addr.toNat addr.toNat := by
  rw [inPageWindow_eq] at hw
  rw [State.place, (pageLocation_findsFirst s.ppage addr.toNat).of_none hw]

/-- Settles O25: each list is searched for its first entry that holds. -/
theorem pagedAndGlobalPlaces : Obligations.PagedAndGlobalPlaces := by
  intro s
  refine ⟨fun addr => ⟨fun g hg => ?_, fun hg => ?_, s.place_of_first_window addr, s.place_of_no_window addr⟩,
    fun ea k => ⟨fun w hw => ?_, fun hw => ?_, fun w hw => ?_, fun hw => ?_⟩,
    fun p => ⟨s.accessed_unchanged p, State.accessed_eq⟩, fun n v => ⟨rfl, rfl, rfl⟩,
    fun h p v => s.getPlace_putPlace_same h v⟩
  · exact (kindIn_findsFirst addr.toNat).of_first hg
  · exact (kindIn_findsFirst addr.toNat).of_none hg
  · exact congrArg (· + k) ((translateGlobal_findsFirst _).of_first hw)
  · exact congrArg (· + k) ((translateGlobal_findsFirst _).of_none hw)
  · rw [State.globalPlaceAt, (globalPlace_findsFirst s _).of_first hw]
    cases w.target <;> rfl
  · exact (globalPlace_findsFirst s _).of_none hw

/-! ### Words in memory, and the stack (R12, R81) -/

theorem Word.low_eq_extractLsb' (v : Word) : v.low = v.extractLsb' 0 8 := by
  simp [Word.low, BitVec.setWidth_eq_extractLsb']

/-- Two neighbouring bytes of plain memory are two cells. -/
theorem State.PlainRam.places {s : State} {addr : Word} (h : s.PlainRam addr 2) :
    s.place addr = .cell addr.toNat ∧ s.place (addr + 1) = .cell (addr + 1).toNat := by
  have h0 := h 0 (by omega)
  have h1 := h 1 (by omega)
  rw [BitVec.add_zero] at h0
  exact ⟨h0, h1⟩

theorem toNat_ne_toNat_succ (addr : Word) : addr.toNat ≠ (addr + 1).toNat := by
  have := addr.isLt
  rw [BitVec.toNat_add]
  simp
  omega

/-- A byte written to plain memory reads back. -/
theorem State.read8_write8_same {s : State} (h : memWf s.mem = true) {addr : Word} {loc : Nat} (v : Byte)
    (hp : s.place addr = .cell loc) : (s.write8 addr v).read8 addr = v := by
  rw [State.write8, State.read8, State.place_putPlace v (hp ▸ Place.noConfusion), hp]
  exact memGet_memSet_same h

/-- A word written to plain memory reads back, the high byte first (R81). -/
theorem State.read8_write16_same {s : State} (h : memWf s.mem = true) {addr : Word} (v : Word)
    (hp : s.PlainRam addr 2) :
    (s.write16 addr v).read8 addr = v.high ∧ (s.write16 addr v).read8 (addr + 1) = v.low := by
  obtain ⟨h0, h1⟩ := hp.places
  have hplace : ∀ a, (s.write16 addr v).place a = s.place a := fun a => by
    rw [State.write16, State.place_putPlace _ (h1 ▸ Place.noConfusion), State.place_putPlace _ (h0 ▸ Place.noConfusion)]
  have hmem : (s.write16 addr v).mem = memSet (memSet s.mem addr.toNat v.high) (addr + 1).toNat v.low := by
    rw [State.write16, h0, h1]; rfl
  constructor
  · rw [State.read8, hplace, h0, State.getPlace, hmem, memGet_memSet_other (toNat_ne_toNat_succ addr),
      memGet_memSet_same h]
  · rw [State.read8, hplace, h1, State.getPlace, hmem, memGet_memSet_same (memSet_wf _ _ h)]

theorem State.read16_write16_same {s : State} (h : memWf s.mem = true) {addr : Word} (v : Word)
    (hp : s.PlainRam addr 2) : (s.write16 addr v).read16 addr = v := by
  obtain ⟨hhigh, hlow⟩ := State.read8_write16_same h v hp
  rw [State.read16, hhigh, hlow, wordOf_high_low]

/-- Settles O23: two neighbouring cells, and a push is a write below SP. -/
theorem wordsAreBigEndianAndTheStackGrowsDown : Obligations.WordsAreBigEndianAndTheStackGrowsDown := by
  intro s h
  refine ⟨fun addr v hp => ?_, fun v hp => ?_, fun v hp => ?_⟩
  · obtain ⟨hhigh, hlow⟩ := State.read8_write16_same h.mem v hp
    exact ⟨hhigh, hlow.trans (Word.low_eq_extractLsb' v), State.read16_write16_same h.mem v hp⟩
  · have hcell := hp 0 (by omega)
    rw [BitVec.add_zero] at hcell
    refine ⟨by simp, ?_, by simp [State.popped]⟩
    rw [State.top8, State.push8_sp]
    exact State.read8_write8_same (s := { s with sp := s.sp - 1 }) h.mem v hcell
  · have hsp : s.sp - 1 = s.sp - 2 + 1 := by bv_omega
    obtain ⟨hhigh, hlow⟩ := State.read8_write16_same (s := { s with sp := s.sp - 2 }) h.mem v hp
    refine ⟨by simp, hhigh, ?_, ?_, by simp [State.popped]⟩
    · rw [hsp]
      exact hlow.trans (Word.low_eq_extractLsb' v)
    · rw [State.top16, State.push16_sp]
      exact State.read16_write16_same (s := { s with sp := s.sp - 2 }) h.mem v hp

/-! ### What a step adds to an instruction -/

theorem State.tick_unchanged (s : State) : Unchanged [.fresh] s s.tick := by
  intro p hp
  cases p with
  | fresh => simp at hp
  | _ => rfl

theorem State.havocTemporaries_unchanged (s : State) : Unchanged [.tmp1, .tmp2, .tmp3] s s.havocTemporaries := by
  intro p hp
  cases p with
  | tmp1 | tmp2 | tmp3 => simp at hp
  | _ => rfl

theorem State.withQueue_unchanged (s : State) (queue : List (Word × Byte)) :
    Unchanged [.queue, .refilled] s { s with queue := queue, refilled := false } := by
  intro p hp
  cases p with
  | queue | refilled => simp at hp
  | _ => rfl

theorem State.settleQueue_unchanged (after before : State) (i : Instr) (pcnext : Word) :
    Unchanged [.queue, .refilled] after (after.settleQueue before i pcnext) := by
  unfold State.settleQueue
  split
  · exact after.withQueue_unchanged _
  · split <;> exact after.withQueue_unchanged _

theorem State.settleQueue_refilled (after before : State) (i : Instr) (pcnext : Word) :
    (after.settleQueue before i pcnext).refilled = false := by
  unfold State.settleQueue
  split
  · rfl
  · split <;> rfl

/-- A change of flow empties the queue (R711). -/
theorem State.settleQueue_queue_of_refilled {after : State} (before : State) {i : Instr} (pcnext : Word)
    (hi : hasCommas i = false) (h : after.refilled = true) : (after.settleQueue before i pcnext).queue = [] := by
  simp [State.settleQueue, hi, h]

/-- `settle` settles the queue of a state that differs in the temporaries at most. -/
theorem State.settle_eq (after before : State) (i : Instr) (pcnext : Word) :
    ∃ u, after.settle before i pcnext = (u.settleQueue before i pcnext).tick ∧
      Unchanged [.tmp1, .tmp2, .tmp3] after u ∧ (keepsTemporaries i = true → u = after) := by
  cases hi : keepsTemporaries i with
  | true => exact ⟨after, by simp only [State.settle, hi, if_true], Unchanged.refl _ after, fun _ => rfl⟩
  | false =>
    exact ⟨after.havocTemporaries, by simp only [State.settle, hi, Bool.false_eq_true, if_false],
      after.havocTemporaries_unchanged, fun h => by cases h⟩

/-- An old byte that the queue may hold is one of those looked at, and what lies there has changed. -/
theorem mem_changedBytes {before after : State} {lo : Word} {n : Nat} {e : Word × Byte}
    (h : e ∈ changedBytes before after lo n) :
    inWindow lo n e.1 = true ∧ e.2 = before.read8 e.1 ∧
      after.getPlace (before.place e.1) ≠ before.getPlace (before.place e.1) := by
  obtain ⟨k, hk, hchanged⟩ := List.mem_filterMap.mp h
  have hkn : k < n := List.mem_range.mp hk
  have hold : ∀ p, before.place (lo + BitVec.ofNat 16 k) = p →
      changedAt before after (lo + BitVec.ofNat 16 k) p = some e →
      e.1 = lo + BitVec.ofNat 16 k ∧ e.2 = before.read8 e.1 ∧
        after.getPlace (before.place e.1) ≠ before.getPlace (before.place e.1) := by
    intro p hp hat
    unfold changedAt at hat
    split at hat
    · cases hat
    next hne =>
      cases hat
      subst hp
      exact ⟨rfl, rfl, Ne.symm hne⟩
  have hwin : inWindow lo n (lo + BitVec.ofNat 16 k) = true := by
    have : k % 65536 ≤ k := Nat.mod_le k 65536
    have hdist : lo + BitVec.ofNat 16 k - lo = BitVec.ofNat 16 k := by rw [BitVec.add_comm, BitVec.add_sub_cancel]
    simp only [inWindow, decide_eq_true_eq, hdist, BitVec.toNat_ofNat]
    omega
  unfold changedByte at hchanged
  split at hchanged
  · cases hchanged
  all_goals
    next hp =>
      obtain ⟨haddr, hrest⟩ := hold _ hp hchanged
      exact ⟨haddr ▸ hwin, hrest⟩

/-- What the queue holds after an instruction in straight line lies near the next one, and is old (R91, R711). -/
theorem State.mem_keepQueue {after before : State} {lo : Word} {n : Nat} {e : Word × Byte}
    (h : e ∈ (after.keepQueue before lo n).queue) :
    inWindow lo n e.1 = true ∧ (e ∈ before.queue ∨ e.2 = before.read8 e.1 ∧
      after.getPlace (before.place e.1) ≠ before.getPlace (before.place e.1)) := by
  rcases List.mem_append.mp h with hkept | hnew
  · obtain ⟨hq, hwin⟩ := List.mem_filter.mp hkept
    exact ⟨hwin, .inl hq⟩
  · obtain ⟨hwin, hold⟩ := mem_changedBytes hnew
    exact ⟨hwin, .inr hold⟩

theorem State.mem_settleQueue {after before : State} {i : Instr} {pcnext : Word} (hi : hasCommas i = false)
    {e : Word × Byte} (h : e ∈ (after.settleQueue before i pcnext).queue) :
    inWindow pcnext before.params.queueDepth e.1 = true ∧ (e ∈ before.queue ∨ e.2 = before.read8 e.1 ∧
      after.getPlace (before.place e.1) ≠ before.getPlace (before.place e.1)) := by
  rw [State.settleQueue, if_neg (by simp [hi])] at h
  split at h
  · cases h
  · exact State.mem_keepQueue h

/-- What `settle` adds is what a step may add. -/
theorem State.settle_adds (s t : State) (i : Instr) (pcnext : Word) :
    StepAdds i pcnext s t (t.settle s i pcnext) := by
  obtain ⟨u, hsettle, htmp, hkept⟩ := t.settle_eq s i pcnext
  have hmem : SameMemory t u := htmp.sameMemory (by simp)
  have hqueue := u.settleQueue_unchanged s i pcnext
  rw [hsettle]
  refine ⟨?_, ?_, fun hi => ?_, u.settleQueue_refilled s i pcnext, fun hi ht => ?_, fun hi e he => ?_⟩
  · exact ((htmp.mono (by simp)).trans (hqueue.mono (by simp))).trans ((State.tick_unchanged _).mono (by simp))
  · exact congrArg (· + 1) (Part.same_trans (htmp .fresh (by simp)) (hqueue .fresh (by simp)))
  · cases hkept hi
    exact ⟨hqueue .tmp1 (by simp), hqueue .tmp2 (by simp), hqueue .tmp3 (by simp)⟩
  · exact State.settleQueue_queue_of_refilled s pcnext hi ((htmp .refilled (by simp)).trans ht)
  · rw [← hmem.getPlace]
    exact State.mem_settleQueue hi he

/-! ### A step in a quiet state -/

theorem step_of_quiet {s : State} (h : s.Quiet) : step s = s.runInstruction := by
  simp only [step, h.reset, h.undisturbed, State.runStateStep, h.running, State.runningStep, h.interrupt]

theorem State.runInstruction_of_decode {s : State} {i : Instr} {rest : List Byte}
    (h : decode s.params.variant s.fetchBytes = .ok (i, rest)) :
    s.runInstruction = s.runDecoded i (longestInstruction - rest.length) := by
  rw [State.runInstruction, h]

theorem State.runDecoded_of_exec {s t : State} {i : Instr} {n : Nat} (h : exec i (s.fetched n) = .next t) :
    s.runDecoded i n = .next (t.settle s i (s.pc + BitVec.ofNat 16 n)) := by
  rw [State.runDecoded, h]

/-- Settles O5: a quiet step is fetch, decode, `exec` and `settle`. -/
theorem stepRunsTheDecodedInstruction : Obligations.StepRunsTheDecodedInstruction := by
  intro s i rest t hquiet hdecode hexec
  refine ⟨_, ?_, s.settle_adds t i _⟩
  rw [step_of_quiet hquiet, State.runInstruction_of_decode hdecode, State.runDecoded_of_exec hexec]

end Sys2Proof.Machine

/-! PROOFS. The scope family: no operation changes the parameters, sets X or breaks the invariant, but for a reset and
the entry to XIRQ. -/

namespace Sys2Proof.Machine

/-! ### What no operation of the machine breaks -/

/-- The parameters stay, X is not set, and the invariant is kept. -/
structure Keeps (s t : State) : Prop where
  params : t.params = s.params
  xMask : s.flag .x = false → t.flag .x = false
  inv : s.Inv → t.Inv

theorem Keeps.refl (s : State) : Keeps s s := ⟨rfl, id, id⟩

theorem Keeps.trans {s t u : State} (h : Keeps s t) (h' : Keeps t u) : Keeps s u :=
  ⟨h'.params.trans h.params, h'.xMask ∘ h.xMask, h'.inv ∘ h.inv⟩

/-- Nothing breaks where the memories, GPAGE, the condition codes and the parameters stay. -/
theorem keeps_of_same {s t : State} (hp : t.params = s.params) (hc : t.ccr = s.ccr) (hm : t.mem = s.mem)
    (hg : t.gmem = s.gmem) (hpage : t.gpage = s.gpage) : Keeps s t :=
  ⟨hp, fun hx => (State.flag_eq_of_ccr hc .x).trans hx, fun h => h.congr hm hg hpage hp⟩

theorem keeps_of_unchanged {except : List Part} {s t : State} (h : Unchanged except s t)
    (hex : ∀ p ∈ [Part.params, .ccr, .mem, .gmem, .gpage], p ∉ except) : Keeps s t :=
  keeps_of_same (h .params (hex _ (by simp))) (h .ccr (hex _ (by simp))) (h .mem (hex _ (by simp)))
    (h .gmem (hex _ (by simp))) (h .gpage (hex _ (by simp)))

/-! ### The condition codes: X is no result flag -/

@[simp] theorem flagOf_withNZ_x (k : Byte) (n z : Bool) : flagOf (withNZ k n z) .x = flagOf k .x := by
  simp [withNZ]

@[simp] theorem flagOf_withNZV_x (k : Byte) (n z v : Bool) : flagOf (withNZV k n z v) .x = flagOf k .x := by
  simp [withNZV]

@[simp] theorem flagOf_withNZVC_x (k : Byte) (n z v c : Bool) : flagOf (withNZVC k n z v c) .x = flagOf k .x := by
  simp [withNZVC]

@[simp] theorem flagOf_withNZC_x (k : Byte) (n z c : Bool) : flagOf (withNZC k n z c) .x = flagOf k .x := by
  simp [withNZC]

@[simp] theorem flagOf_withZVC_x (k : Byte) (z v c : Bool) : flagOf (withZVC k z v c) .x = flagOf k .x := by
  simp [withZVC]

@[simp] theorem flagOf_withAlu_x {w : Nat} (k : Byte) (f : Alu w) : flagOf (withAlu k f) .x = flagOf k .x := by
  simp [withAlu]

@[simp] theorem flagOf_logicCcr_x {w : Nat} (k : Byte) (r : BitVec w) : flagOf (logicCcr k r) .x = flagOf k .x := by
  simp [logicCcr]

@[simp] theorem flagOf_testCcr_x {w : Nat} (k : Byte) (r : BitVec w) : flagOf (testCcr k r) .x = flagOf k .x := by
  simp [testCcr]

@[simp] theorem flagOf_clearCcr_x (k : Byte) : flagOf (clearCcr k) .x = flagOf k .x := by
  simp [clearCcr]

@[simp] theorem flagOf_complementCcr_x {w : Nat} (k : Byte) (r : BitVec w) :
    flagOf (complementCcr k r) .x = flagOf k .x := by
  simp [complementCcr]

@[simp] theorem flagOf_incCcr_x {w : Nat} (k : Byte) (a : BitVec w) : flagOf (incCcr k a) .x = flagOf k .x := by
  simp [incCcr]

@[simp] theorem flagOf_decCcr_x {w : Nat} (k : Byte) (a : BitVec w) : flagOf (decCcr k a) .x = flagOf k .x := by
  simp [decCcr]

@[simp] theorem flagOf_extremumCcr_x {w : Nat} (k : Byte) (reg m : BitVec w) :
    flagOf (extremumCcr k reg m) .x = flagOf k .x := by
  simp [extremumCcr]

@[simp] theorem flagOf_tableCcr_x {w : Nat} (k : Byte) (r : BitVec w) (c : Bool) :
    flagOf (tableCcr k r c) .x = flagOf k .x := by
  simp [tableCcr]

@[simp] theorem flagOf_havocCcr_x (k : Byte) (fresh : Nat) : flagOf (havocCcr k fresh) .x = flagOf k .x := by
  simp [havocCcr, withHNZVC]

@[simp] theorem flagOf_maskedCcr_x (k : Byte) : flagOf (maskedCcr k false) .x = flagOf k .x := by
  simp [maskedCcr]

/-! ### One operation after another -/

section Operations

variable {s t : State}

theorem Keeps.setCcr (h : Keeps s t) {k : Byte} (hk : flagOf t.ccr .x = false → flagOf k .x = false) :
    Keeps s (t.setCcr k) :=
  h.trans ⟨rfl, hk, fun hi => hi.congr rfl rfl rfl rfl⟩

/-- Result flags written: X stays. -/
theorem Keeps.setFlags (h : Keeps s t) {k : Byte} (hk : flagOf k .x = flagOf t.ccr .x) : Keeps s (t.setCcr k) :=
  h.setCcr fun hx => hk.trans hx

theorem Keeps.writeCcr (h : Keeps s t) (v : Byte) : Keeps s (t.writeCcr v) :=
  h.setCcr fun hx => by simp [flagOf_writtenCcr, hx]

theorem Keeps.writeCcrh (h : Keeps s t) (v : Byte) : Keeps s (t.writeCcrh v) :=
  h.trans (keeps_of_same rfl rfl rfl rfl rfl)

theorem Keeps.writeCcrw (h : Keeps s t) (v : Word) : Keeps s (t.writeCcrw v) :=
  (h.writeCcr v.low).writeCcrh v.high

theorem Keeps.set8 (h : Keeps s t) (r : Reg8) (v : Byte) : Keeps s (t.set8 r v) :=
  h.trans (keeps_of_same (by simp) (by simp) (by simp) (by simp) (by simp))

theorem Keeps.set16 (h : Keeps s t) (r : Reg16) (v : Word) : Keeps s (t.set16 r v) :=
  h.trans (keeps_of_same (by simp) (by simp) (by simp) (by simp) (by simp))

theorem Keeps.putPlace (h : Keeps s t) (p : Place) (v : Byte) : Keeps s (t.putPlace p v) :=
  h.trans ⟨by simp, fun hx => (State.flag_eq_of_ccr (by simp) .x).trans hx, fun hi => State.putPlace_inv hi p v⟩

theorem Keeps.write8 (h : Keeps s t) (addr : Word) (v : Byte) : Keeps s (t.write8 addr v) := h.putPlace _ v

theorem Keeps.write16 (h : Keeps s t) (addr v : Word) : Keeps s (t.write16 addr v) :=
  (h.putPlace _ v.high).putPlace _ v.low

theorem Keeps.write32 (h : Keeps s t) (addr : Word) (v : BitVec 32) : Keeps s (t.write32 addr v) :=
  (h.write16 addr _).write16 _ _

theorem Keeps.globalWrite8 (h : Keeps s t) (ea : Word) (v : Byte) : Keeps s (t.globalWrite8 ea v) := h.putPlace _ v

theorem Keeps.globalWrite16 (h : Keeps s t) (ea v : Word) : Keeps s (t.globalWrite16 ea v) :=
  (h.putPlace _ v.high).putPlace _ v.low

theorem Keeps.withSp (h : Keeps s t) (v : Word) : Keeps s { t with sp := v } := h.set16 .sp v

theorem Keeps.push8 (h : Keeps s t) (v : Byte) : Keeps s (t.push8 v) := (h.withSp _).write8 _ v

theorem Keeps.push16 (h : Keeps s t) (v : Word) : Keeps s (t.push16 v) := (h.withSp _).write16 _ v

theorem Keeps.accessed (h : Keeps s t) (p : Place) : Keeps s (t.accessed p) :=
  h.trans (keeps_of_unchanged (t.accessed_unchanged p) (by simp))

theorem Keeps.touched8 (h : Keeps s t) (addr : Word) : Keeps s (t.touched8 addr) := h.accessed _

theorem Keeps.touched16 (h : Keeps s t) (addr : Word) : Keeps s (t.touched16 addr) := (h.accessed _).accessed _

theorem Keeps.touched32 (h : Keeps s t) (addr : Word) : Keeps s (t.touched32 addr) :=
  (h.touched16 addr).touched16 _

theorem Keeps.touchedVector (h : Keeps s t) (vec : Word) : Keeps s (t.touchedVector vec) :=
  (h.accessed _).accessed _

theorem Keeps.pulled8 (h : Keeps s t) : Keeps s t.pulled8 := (h.touched8 _).withSp _

theorem Keeps.pulled16 (h : Keeps s t) : Keeps s t.pulled16 := (h.touched16 _).withSp _

theorem Keeps.jump (h : Keeps s t) (target : Word) : Keeps s (t.jump target) :=
  h.trans (keeps_of_same rfl rfl rfl rfl rfl)

theorem Keeps.branchIf (h : Keeps s t) (cond : Bool) (target : Word) : Keeps s (branchIf cond target t) := by
  cases cond
  · exact h
  · exact h.jump target

theorem Keeps.counterAdd (h : Keeps s t) (r : LoopReg) (n : Int) : Keeps s (counterAdd r n t) := by
  cases r
  · exact h.set8 .a _
  · exact h.set8 .b _
  · exact h.set16 .d _
  · exact h.set16 .x _
  · exact h.set16 .y _
  · exact h.set16 .sp _

end Operations

/-! ### Operands -/

theorem keeps_xbAfter (xb : Xb) (s : State) : Keeps s (xbAfter xb s) :=
  keeps_of_same (by simp) (by simp) (by simp) (by simp) (by simp)

theorem keeps_eaAfter (ea : Ea) (s : State) : Keeps s (eaAfter ea s) :=
  keeps_of_same (by simp) (by simp) (by simp) (by simp) (by simp)

theorem keeps_afterMemByte (ea : Ea) (s : State) : Keeps s (afterMemByte ea s) :=
  keeps_of_same (by simp) (by simp) (by simp) (by simp) (by simp)

theorem keeps_afterMemWord (ea : Ea) (s : State) : Keeps s (afterMemWord ea s) :=
  keeps_of_same (by simp) (by simp) (by simp) (by simp) (by simp)

theorem keeps_afterGlobalByte (ea : Ea) (s : State) : Keeps s (afterGlobalByte ea s) :=
  keeps_of_same (by simp) (by simp) (by simp) (by simp) (by simp)

theorem keeps_afterGlobalWord (ea : Ea) (s : State) : Keeps s (afterGlobalWord ea s) :=
  keeps_of_same (by simp) (by simp) (by simp) (by simp) (by simp)

theorem keeps_src8After (src : Src8) (s : State) : Keeps s (src8After src s) :=
  keeps_of_same (by simp) (by simp) (by simp) (by simp) (by simp)

theorem keeps_src16After (src : Src16) (s : State) : Keeps s (src16After src s) :=
  keeps_of_same (by simp) (by simp) (by simp) (by simp) (by simp)

theorem keeps_modify8 (ea : Ea) (result ccr : Byte → Byte) (s : State)
    (hc : ∀ m, flagOf (ccr m) .x = flagOf s.ccr .x) : Keeps s (modify8 ea result ccr s) :=
  ((keeps_afterMemByte ea s).write8 _ _).setFlags (by simp [hc])

theorem keeps_modify16 (ea : Ea) (result : Word → Word) (ccr : Word → Byte) (s : State)
    (hc : ∀ m, flagOf (ccr m) .x = flagOf s.ccr .x) : Keeps s (modify16 ea result ccr s) :=
  ((keeps_afterMemWord ea s).write16 _ _).setFlags (by simp [hc])

theorem keeps_modifyReg8 (r : Reg8) (result ccr : Byte → Byte) (s : State)
    (hc : ∀ m, flagOf (ccr m) .x = flagOf s.ccr .x) : Keeps s (modifyReg8 r result ccr s) :=
  ((Keeps.refl s).set8 r _).setFlags (by simp [hc])

theorem keeps_modifyReg16 (r : Reg16) (result : Word → Word) (ccr : Word → Byte) (s : State)
    (hc : ∀ m, flagOf (ccr m) .x = flagOf s.ccr .x) : Keeps s (modifyReg16 r result ccr s) :=
  ((Keeps.refl s).set16 r _).setFlags (by simp [hc])

theorem keeps_alu8 (ea : Ea) (op : Byte → Alu 8) (s : State) : Keeps s (alu8 ea op s) :=
  keeps_modify8 ea _ _ s fun _ => by simp

theorem keeps_alu16 (ea : Ea) (op : Word → Alu 16) (s : State) : Keeps s (alu16 ea op s) :=
  keeps_modify16 ea _ _ s fun _ => by simp

theorem keeps_aluReg8 (r : Reg8) (op : Byte → Alu 8) (s : State) : Keeps s (aluReg8 r op s) :=
  keeps_modifyReg8 r _ _ s fun _ => by simp

theorem keeps_aluReg16 (r : Reg16) (op : Word → Alu 16) (s : State) : Keeps s (aluReg16 r op s) :=
  keeps_modifyReg16 r _ _ s fun _ => by simp

/-! ### Exceptions -/

theorem Keeps.pushCcr {s t : State} (h : Keeps s t) : Keeps s t.pushCcr := by
  unfold State.pushCcr
  split
  · exact h.push8 _
  · exact h.push16 _

theorem Keeps.pushFrame {s t : State} (h : Keeps s t) (rtn : Word) : Keeps s (t.pushFrame rtn) :=
  ((((h.push16 rtn).push16 t.y).push16 t.x).push16 (wordOf t.b t.a)).pushCcr

/-- Going to a vector sets X for XIRQ alone (R671). -/
theorem Keeps.vectored {s t : State} (h : Keeps s t) (target : Word) : Keeps s (t.vectored target false) :=
  (h.setFlags (k := maskedCcr t.ccr false) (by simp)).trans (keeps_of_same rfl rfl rfl rfl rfl)

theorem Keeps.enter {s t : State} (h : Keeps s t) (vec rtn : Word) : Keeps s (t.enter vec false rtn) :=
  ((h.touchedVector vec).pushFrame rtn).vectored _

theorem Keeps.pullCcr {s t : State} (h : Keeps s t) : Keeps s t.pullCcr := by
  unfold State.pullCcr
  split
  · exact h.pulled8.writeCcr _
  · exact h.pulled16.writeCcrw _

/-- RTI can clear X and not set it (R17). -/
theorem keeps_returned (s : State) : Keeps s s.returned := by
  have hba : ∀ {t : State}, Keeps s t → Keeps s t.pullBA := fun h =>
    h.pulled16.trans (keeps_of_same rfl rfl rfl rfl rfl)
  have hx : ∀ {t : State}, Keeps s t → Keeps s t.pullX := fun h => h.pulled16.set16 .x _
  have hy : ∀ {t : State}, Keeps s t → Keeps s t.pullY := fun h => h.pulled16.set16 .y _
  have hpc : ∀ {t : State}, Keeps s t → Keeps s t.pullPc := fun h => h.pulled16.jump _
  exact hpc (hy (hx (hba (Keeps.refl s).pullCcr)))

/-! ### The instruction families -/

theorem keeps_add8 (r : Reg8) (m : Byte) (cin : Bool) (t : State) : Keeps t (add8 r m cin t) :=
  ((Keeps.refl t).set8 r _).setFlags (by simp)

theorem keeps_add16 (r : Reg16) (m : Word) (t : State) : Keeps t (add16 r m t) :=
  ((Keeps.refl t).set16 r _).setFlags (by simp)

theorem keeps_add16X (r : Reg16) (m : Word) (t : State) : Keeps t (add16X r m t) :=
  ((Keeps.refl t).set16 r _).setFlags (by simp)

theorem keeps_addCarry16X (r : Reg16) (m : Word) (t : State) : Keeps t (addCarry16X r m t) :=
  ((Keeps.refl t).set16 r _).setFlags (by simp)

theorem keeps_sub8 (r : Reg8) (m : Byte) (bin : Bool) (t : State) : Keeps t (sub8 r m bin t) :=
  ((Keeps.refl t).set8 r _).setFlags (by simp)

theorem keeps_sub16 (r : Reg16) (m : Word) (t : State) : Keeps t (sub16 r m t) :=
  ((Keeps.refl t).set16 r _).setFlags (by simp)

theorem keeps_subBorrow16 (r : Reg16) (m : Word) (t : State) : Keeps t (subBorrow16 r m t) :=
  ((Keeps.refl t).set16 r _).setFlags (by simp)

theorem keeps_daa (s : State) : Keeps s (daa s) := ((Keeps.refl s).set8 .a _).setFlags (by simp)

theorem keeps_compare {w : Nat} (a m : BitVec w) (bin : Bool) (t : State) : Keeps t (compare a m bin t) :=
  (Keeps.refl t).setFlags (by simp)

theorem keeps_compareBorrow (a m : Word) (t : State) : Keeps t (compareBorrow a m t) :=
  (Keeps.refl t).setFlags (by simp)

theorem keeps_load8 (r : Reg8) (v : Byte) (t : State) : Keeps t (load8 r v t) :=
  ((Keeps.refl t).set8 r v).setFlags (by simp)

theorem keeps_load16 (r : Reg16) (v : Word) (t : State) : Keeps t (load16 r v t) :=
  ((Keeps.refl t).set16 r v).setFlags (by simp)

theorem keeps_store8 (r : Reg8) (ea : Ea) (s : State) : Keeps s (store8 r ea s) :=
  ((keeps_eaAfter ea s).write8 _ _).setFlags (by simp)

theorem keeps_store16 (r : Reg16) (ea : Ea) (s : State) : Keeps s (store16 r ea s) :=
  ((keeps_eaAfter ea s).write16 _ _).setFlags (by simp)

theorem keeps_globalStore8 (r : Reg8) (ea : Ea) (s : State) : Keeps s (globalStore8 r ea s) :=
  ((keeps_eaAfter ea s).globalWrite8 _ _).setFlags (by simp)

theorem keeps_globalStore16 (r : Reg16) (ea : Ea) (s : State) : Keeps s (globalStore16 r ea s) :=
  ((keeps_eaAfter ea s).globalWrite16 _ _).setFlags (by simp)

theorem keeps_lea (r : Reg16) (xb : Xb) (s : State) : Keeps s (lea r xb s) := (keeps_xbAfter xb s).set16 r _

theorem keeps_logic8 (r : Reg8) (op : Byte → Byte → Byte) (m : Byte) (t : State) : Keeps t (logic8 r op m t) :=
  ((Keeps.refl t).set8 r _).setFlags (by simp)

theorem keeps_logic16 (r : Reg16) (op : Word → Word → Word) (m : Word) (t : State) : Keeps t (logic16 r op m t) :=
  ((Keeps.refl t).set16 r _).setFlags (by simp)

theorem keeps_extremum8 (xb : Xb) (pick : Byte → Byte → Byte) (s : State) : Keeps s (extremum8 xb pick s) :=
  ((keeps_afterMemByte _ s).set8 .a _).setFlags (by simp)

theorem keeps_extremumMem8 (xb : Xb) (pick : Byte → Byte → Byte) (s : State) : Keeps s (extremumMem8 xb pick s) :=
  keeps_modify8 _ _ _ s fun _ => by simp

theorem keeps_extremum16 (xb : Xb) (pick : Word → Word → Word) (s : State) : Keeps s (extremum16 xb pick s) :=
  ((keeps_afterMemWord _ s).set16 .d _).setFlags (by simp)

theorem keeps_extremumMem16 (xb : Xb) (pick : Word → Word → Word) (s : State) : Keeps s (extremumMem16 xb pick s) :=
  keeps_modify16 _ _ _ s fun _ => by simp

theorem keeps_tbl (xb : Xb) (s : State) : Keeps s (tbl xb s) :=
  ((keeps_afterMemWord _ s).set8 .a _).setFlags (by simp)

theorem keeps_etbl (xb : Xb) (s : State) : Keeps s (etbl xb s) :=
  (((keeps_afterMemWord _ s).touched16 _).set16 .d _).setFlags (by simp)

/-! ### Calls and returns -/

theorem Keeps.withPpage {s t : State} (h : Keeps s t) (page : Byte) : Keeps s { t with ppage := page } :=
  h.trans (keeps_of_same rfl rfl rfl rfl rfl)

theorem Keeps.callTo {s t : State} (h : Keeps s t) (page : Byte) (target : Word) : Keeps s (callTo page target t) :=
  (((h.push16 t.pc).push8 _).jump target).withPpage page

theorem keeps_call (op : CallOp) (s : State) : Keeps s (call op s) := by
  cases op with
  | direct ea pg => exact (keeps_eaAfter ea s).callTo _ _
  | indirect xb => exact (((Keeps.refl s).touched16 _).touched8 _).callTo _ _

theorem keeps_rtc (s : State) : Keeps s (rtc s) :=
  ((Keeps.refl s).pulled8.withPpage s.top8).pulled16.jump _

/-! ### Transfers and exchanges -/

theorem Keeps.setByteLoc {s t : State} (h : Keeps s t) (l : ByteLoc) (v : Byte) : Keeps s (t.setByteLoc l v) := by
  cases l with
  | ccr => exact h.writeCcr v
  | ccrh => exact h.writeCcrh v
  | _ => exact h.trans (keeps_of_same rfl rfl rfl rfl rfl)

theorem Keeps.setWordLoc {s t : State} (h : Keeps s t) (l : WordLoc) (v : Word) : Keeps s (t.setWordLoc l v) := by
  cases l with
  | ccrw => exact h.writeCcrw v
  | _ => exact h.trans (keeps_of_same rfl rfl rfl rfl rfl)

theorem keeps_swapBytes (s : State) (l m : ByteLoc) : Keeps s (s.swapBytes l m) :=
  ((Keeps.refl s).setByteLoc l _).setByteLoc m _

theorem keeps_swapWords (s : State) (l m : WordLoc) : Keeps s (s.swapWords l m) :=
  ((Keeps.refl s).setWordLoc l _).setWordLoc m _

theorem keeps_transferPlain (r1 r2 : XferReg) (s : State) : Keeps s (transferPlain r1 r2 s) := by
  unfold transferPlain
  split
  · exact (Keeps.refl s).setByteLoc _ _
  · split <;> exact (Keeps.refl s).setWordLoc _ _

theorem keeps_transferIndex (hi lo : ByteLoc) (dst : WordLoc) (r1 : XferReg) (s : State) :
    Keeps s (transferIndex hi lo dst r1 s) := by
  cases r1 with
  | a | b => exact (Keeps.refl s).setByteLoc _ _
  | _ => exact (Keeps.refl s).setWordLoc _ _

theorem keeps_transferAlt (r1 r2 : XferReg) (s : State) : Keeps s (transferAlt r1 r2 s) := by
  unfold transferAlt
  cases r2 with
  | a | b => exact (Keeps.refl s).setByteLoc _ _
  | x | y => exact keeps_transferIndex _ _ _ r1 s
  | d => dsimp only; split <;> exact (Keeps.refl s).setWordLoc _ _
  | ccr | tmp | sp =>
    dsimp only
    split
    · exact (Keeps.refl s).setByteLoc _ _
    · exact (Keeps.refl s).setByteLoc _ _
    all_goals exact (Keeps.refl s).setWordLoc _ _

theorem keeps_transferCell (alt : Bool) (r1 r2 : XferReg) (s : State) : Keeps s (transferCell alt r1 r2 s) := by
  cases alt
  · exact keeps_transferPlain r1 r2 s
  · exact keeps_transferAlt r1 r2 s

theorem keeps_exchangeByteWord (r1 : XferReg) (l : ByteLoc) (r2 : XferReg) (s : State) :
    Keeps s (exchangeByteWord r1 l r2 s) := by
  unfold exchangeByteWord
  split
  · exact (Keeps.refl s).setWordLoc _ _
  · exact ((Keeps.refl s).setWordLoc _ _).setByteLoc l _

theorem keeps_exchangeWordByte (r1 r2 : XferReg) (l : ByteLoc) (s : State) :
    Keeps s (exchangeWordByte r1 r2 l s) := by
  unfold exchangeWordByte
  split
  · exact keeps_swapBytes s _ _
  · exact ((Keeps.refl s).setByteLoc l _).setWordLoc _ _

theorem keeps_exchangePlain (r1 r2 : XferReg) (s : State) : Keeps s (exchangePlain r1 r2 s) := by
  unfold exchangePlain
  split
  · exact keeps_swapBytes s _ _
  · exact keeps_exchangeByteWord r1 _ r2 s
  · exact keeps_exchangeWordByte r1 r2 _ s
  · exact keeps_swapWords s _ _

theorem keeps_exchangeIndex (hi lo : ByteLoc) (dst : WordLoc) (r1 : XferReg) (s : State) :
    Keeps s (exchangeIndex hi lo dst r1 s) := by
  cases r1 with
  | a | b => exact keeps_swapBytes s _ _
  | _ => exact keeps_swapWords s _ _

theorem keeps_exchangeAlt (r1 r2 : XferReg) (s : State) : Keeps s (exchangeAlt r1 r2 s) := by
  unfold exchangeAlt
  cases r2 with
  | a => exact keeps_swapBytes s _ _
  | ccr | x | y | sp => exact keeps_exchangeIndex _ _ _ r1 s
  | b =>
    dsimp only
    split
    · exact (Keeps.refl s).setByteLoc _ _
    all_goals exact keeps_swapBytes s _ _
  | tmp =>
    dsimp only
    split
    · exact keeps_swapWords s _ _
    all_goals exact keeps_exchangeIndex _ _ _ _ s
  | d =>
    dsimp only
    split
    · exact (Keeps.refl s).setWordLoc _ _
    · exact (Keeps.refl s).setWordLoc _ _
    all_goals exact keeps_swapWords s _ _

theorem keeps_exchangeCell (alt : Bool) (r1 r2 : XferReg) (s : State) : Keeps s (exchangeCell alt r1 r2 s) := by
  cases alt
  · exact keeps_exchangePlain r1 r2 s
  · exact keeps_exchangeAlt r1 r2 s

/-! ### Multiplication and division -/

theorem keeps_mul (s : State) : Keeps s (mul s) := ((Keeps.refl s).set16 .d _).setFlags (by simp)

theorem keeps_product32 (p : BitVec 32) (s : State) : Keeps s (product32 p s) :=
  (((Keeps.refl s).set16 .y _).set16 .d _).setFlags (by simp)

theorem keeps_emacs (hhll : Word) (s : State) : Keeps s (emacs hhll s) :=
  (((((Keeps.refl s).touched16 _).touched16 _).touched32 hhll).write32 hhll _).setFlags (by simp [afterFactors])

theorem keeps_noQuotient (v c : Bool) (s : State) : Keeps s (noQuotient v c s) := (Keeps.refl s).setFlags (by simp)

theorem keeps_quotientYD (q rem : Word) (s : State) : Keeps s (quotientYD q rem s) :=
  (((Keeps.refl s).set16 .y q).set16 .d rem).setFlags (by simp)

theorem keeps_saturated (v c : Bool) (s : State) : Keeps s (saturated v c s) :=
  (((Keeps.refl s).set16 .x _).set16 .d _).setFlags (by simp)

theorem keeps_quotientXD (q rem : Word) (s : State) : Keeps s (quotientXD q rem s) :=
  (((Keeps.refl s).set16 .x q).set16 .d rem).setFlags (by simp)

theorem keeps_ediv (s : State) : Keeps s (ediv s) := by
  simp only [ediv]
  split
  · exact keeps_noQuotient _ _ s
  · split
    · exact keeps_noQuotient _ _ s
    · exact keeps_quotientYD _ _ s

theorem keeps_edivs (s : State) : Keeps s (edivs s) := by
  simp only [edivs]
  split
  · exact keeps_noQuotient _ _ s
  · split
    · exact keeps_noQuotient _ _ s
    · exact keeps_quotientYD _ _ s

theorem keeps_fdiv (s : State) : Keeps s (fdiv s) := by
  simp only [fdiv]
  split
  · exact keeps_saturated _ _ s
  · split
    · exact keeps_saturated _ _ s
    · exact keeps_quotientXD _ _ s

theorem keeps_idiv (s : State) : Keeps s (idiv s) := by
  simp only [idiv]
  split
  · exact keeps_saturated _ _ s
  · exact keeps_quotientXD _ _ s

theorem keeps_idivs (s : State) : Keeps s (idivs s) := by
  simp only [idivs]
  split <;> exact (((Keeps.refl s).set16 .x _).set16 .d _).setFlags (by simp)

/-! ### Fuzzy logic -/

theorem Keeps.withIndex {s t : State} (h : Keeps s t) (x y : Word) : Keeps s { t with x := x, y := y } :=
  h.trans (keeps_of_same rfl rfl rfl rfl rfl)

theorem keeps_fuzzyMem (s : State) : Keeps s (fuzzyMem s) :=
  ((((((Keeps.refl s).touched16 s.x).touched16 (s.x + 2)).write8 s.y _).withIndex _ _)).setFlags (by simp)

theorem keeps_arrived (s : State) : Keeps s s.arrived := by
  unfold State.arrived
  split <;> exact keeps_of_same rfl rfl rfl rfl rfl

theorem keeps_runPasses {pass : State → State × Bool} (hpass : ∀ s, Keeps s (pass s).1) (n : Nat) (s : State) :
    Keeps s (runPasses pass n s).1 := by
  induction n generalizing s with
  | zero => exact Keeps.refl s
  | succ n ih =>
    unfold runPasses
    split
    · exact hpass s
    · exact (hpass s).trans (ih _)

theorem Keeps.turnPhase {s t : State} (h : Keeps s t) : Keeps s t.turnPhase := h.setFlags (by simp)

theorem Keeps.ruleInput {s t : State} (h : Keeps s t) (addr : Word) : Keeps s (ruleInput addr t) :=
  (h.touched8 addr).set8 .a _

theorem Keeps.ruleOutput {s t : State} (h : Keeps s t) (addr : Word) : Keeps s (ruleOutput addr t) :=
  (h.touched8 addr).write8 addr _

theorem Keeps.weightRule {s t : State} (h : Keeps s t) : Keeps s (weightRule t) := by
  unfold Machine.weightRule
  split
  · exact (h.touched8 t.y).trans (keeps_of_same rfl rfl rfl rfl rfl)
  · exact h

theorem keeps_revPass (s : State) : Keeps s (revPass s).1 := by
  have hread : Keeps s { s.touched8 s.x with x := s.x + 1, fresh := s.fresh + 1 } :=
    ((Keeps.refl s).touched8 s.x).trans (keeps_of_same rfl rfl rfl rfl rfl)
  simp only [revPass]
  split
  · exact hread
  · split
    · split
      · exact (hread.set8 .a _).turnPhase
      · exact hread.turnPhase
    · split
      · exact hread.ruleOutput _
      · exact hread.ruleInput _

theorem keeps_revwPass (s : State) : Keeps s (revwPass s).1 := by
  have hread : Keeps s { s.touched16 s.x with x := s.x + 2, fresh := s.fresh + 1 } :=
    ((Keeps.refl s).touched16 s.x).trans (keeps_of_same rfl rfl rfl rfl rfl)
  simp only [revwPass]
  split
  · exact hread
  · split
    · split
      · exact (hread.set8 .a _).turnPhase
      · exact hread.weightRule.turnPhase
    · split
      · exact hread.ruleOutput _
      · exact hread.ruleInput _

theorem keeps_evaluateRules {pass : State → State × Bool} (hpass : ∀ s, Keeps s (pass s).1) (s : State) :
    Keeps s (evaluateRules pass s) := by
  have hrun : ∀ n, Keeps s (runPasses pass n s.arrived).1 := fun n =>
    (keeps_arrived s).trans (keeps_runPasses hpass n _)
  simp only [evaluateRules]
  split
  · exact hrun _
  · exact (hrun _).trans (keeps_of_same rfl rfl rfl rfl rfl)

theorem Keeps.havocHNZ {s t : State} (h : Keeps s t) : Keeps s (havocHNZ t) := h.setFlags (by simp)

theorem keeps_rev (s : State) : Keeps s (rev s) :=
  (keeps_evaluateRules keeps_revPass s).havocHNZ.setFlags (by simp)

theorem keeps_revw (s : State) : Keeps s (revw s) := (keeps_evaluateRules keeps_revwPass s).havocHNZ

theorem keeps_wavPass (p : State × WavLoop) : Keeps p.1 (wavPass p).1 :=
  ((Keeps.refl p.1).touched8 _).touched8 _

theorem keeps_wavPasses (n : Nat) (p : State × WavLoop) : Keeps p.1 (wavPasses n p).1 := by
  induction n generalizing p with
  | zero => exact Keeps.refl p.1
  | succ n ih =>
    unfold wavPasses
    split
    · exact keeps_wavPass p
    · exact (keeps_wavPass p).trans (ih _)

theorem Keeps.wavFinished {s t : State} (h : Keeps s t) (w : WavLoop) : Keeps s (wavFinished w t) :=
  (((h.set16 .y _).set16 .x _).set16 .d _).setFlags (by simp)

theorem Keeps.wavStopped {s t : State} (h : Keeps s t) (w : WavLoop) : Keeps s (wavStopped w t) := by
  have hregs : Keeps s { t with x := w.x, y := w.y, b := w.count, pc := t.pc - 1 } :=
    h.trans (keeps_of_same rfl rfl rfl rfl rfl)
  exact ((((hregs.push16 _).push16 _).push16 _).setFlags (by simp)).trans (keeps_of_same rfl rfl rfl rfl rfl)

theorem Keeps.wavFrom {s t : State} (h : Keeps s t) (w : WavLoop) : Keeps s (wavFrom w t) := by
  have hrun : ∀ n, Keeps s (wavPasses n (t, w)).1.arrived := fun n =>
    (h.trans (keeps_wavPasses n (t, w))).trans (keeps_arrived _)
  simp only [Machine.wavFrom]
  split
  · exact (hrun _).wavFinished _
  · exact (hrun _).wavStopped _

theorem Keeps.wavOpen {s t : State} (h : Keeps s t) : Keeps s (wavOpen t) := by
  have harr : t.arrived.ccr = t.ccr := by
    unfold State.arrived
    split <;> rfl
  exact ((((h.trans (keeps_arrived t)).set16 .y _).set16 .x _).set16 .d _).setFlags (by simp [harr])

theorem keeps_wav (s : State) : Keeps s (wav s) := by
  unfold wav
  split
  · exact (Keeps.refl s).wavOpen
  · exact (Keeps.refl s).wavFrom _

theorem keeps_pulledFrame (s : State) : Keeps s s.pulledFrame := (Keeps.refl s).pulled16.pulled16.pulled16

theorem Keeps.withWavFrames {s t : State} (h : Keeps s t) (frames : List WavFrame) :
    Keeps s { t with wavFrames := frames } :=
  h.trans (keeps_of_same rfl rfl rfl rfl rfl)

theorem keeps_resumeWav (s : State) : Keeps s (resumeWav s) := by
  unfold resumeWav
  split
  · exact (keeps_pulledFrame s).wavOpen
  · split
    · exact (keeps_pulledFrame s).wavOpen
    · exact ((keeps_pulledFrame s).withWavFrames _).wavFrom _

/-! ### Halting -/

theorem keeps_bgnd (s : State) : Keeps s (bgnd s) := by
  unfold bgnd
  split
  · exact keeps_of_same rfl rfl rfl rfl rfl
  · exact Keeps.refl s

theorem keeps_halted (s : State) (r : RunState) : Keeps s { s.pushFrame s.pc with runState := r } :=
  ((Keeps.refl s).pushFrame s.pc).trans (keeps_of_same rfl rfl rfl rfl rfl)

theorem keeps_stop (s : State) : Keeps s (stop s) := by
  unfold stop
  split
  · exact Keeps.refl s
  · exact keeps_halted s .stopped

end Sys2Proof.Machine

/-! PROOFS. The scope family: every instruction completes. -/

namespace Sys2Proof.Machine

/-! ### Every instruction completes -/

/-- A meaning answers a next state, and what no operation breaks is kept. -/
def Completes (s : State) (r : Result) : Prop := ∃ t, r = .next t ∧ Keeps s t

theorem Keeps.completes {s t : State} (h : Keeps s t) : Completes s (.next t) := ⟨t, rfl, h⟩

/-- On HCS12 the trap is entered, which keeps the same. -/
theorem Keeps.onHcs12x {s t : State} (h : Keeps s t) : Completes s (onHcs12x s t) := by
  unfold Machine.onHcs12x
  split
  · exact ((Keeps.refl s).enter trapVector s.pc).completes
  · exact h.completes

/-- By the families of instructions: each of the shared operations keeps what is to be kept. -/
theorem exec_completes (i : Instr) (s : State) : Completes s (exec i s) := by
  have hs := Keeps.refl s
  cases i with
  -- Loads and stores
  | ldaa src | ldab src => exact ((keeps_src8After src s).trans (keeps_load8 _ _ _)).completes
  | ldd src | lds src | ldx src | ldy src => exact ((keeps_src16After src s).trans (keeps_load16 _ _ _)).completes
  | staa ea | stab ea => exact (keeps_store8 _ ea s).completes
  | std ea | sts ea | stx ea | sty ea => exact (keeps_store16 _ ea s).completes
  | gldaa ea | gldab ea => exact ((keeps_afterGlobalByte ea s).trans (keeps_load8 _ _ _)).onHcs12x
  | gldd ea | glds ea | gldx ea | gldy ea => exact ((keeps_afterGlobalWord ea s).trans (keeps_load16 _ _ _)).onHcs12x
  | gstaa ea | gstab ea => exact (keeps_globalStore8 _ ea s).onHcs12x
  | gstd ea | gsts ea | gstx ea | gsty ea => exact (keeps_globalStore16 _ ea s).onHcs12x
  | leas xb | leax xb | leay xb => exact (keeps_lea _ xb s).completes
  | clr ea => exact (((keeps_eaAfter ea s).write8 _ _).setFlags (by simp)).completes
  | clrw ea => exact (((keeps_eaAfter ea s).write16 _ _).setFlags (by simp)).onHcs12x
  | clra | clrb => exact ((hs.set8 _ _).setFlags (by simp)).completes
  | clrx | clry => exact ((hs.set16 _ _).setFlags (by simp)).onHcs12x
  -- Pushes and pulls
  | psha | pshb | pshc => exact (hs.push8 _).completes
  | pshd | pshx | pshy => exact (hs.push16 _).completes
  | pshcw => exact (hs.push16 _).onHcs12x
  | pula | pulb => exact (hs.pulled8.set8 _ _).completes
  | puld | pulx | puly => exact (hs.pulled16.set16 _ _).completes
  | pulc => exact (hs.pulled8.writeCcr _).completes
  | pulcw => exact (hs.pulled16.writeCcrw _).onHcs12x
  -- Moves, transfers and exchanges
  | movb src dst =>
    exact (((keeps_src8After src s).trans (keeps_eaAfter dst _)).write8 _ _).completes
  | movw src dst =>
    exact (((keeps_src16After src s).trans (keeps_eaAfter dst _)).write16 _ _).completes
  | tfr r1 r2 alt => exact (keeps_transferCell alt r1 r2 s).completes
  | exg r1 r2 alt => exact (keeps_exchangeCell alt r1 r2 s).completes
  | sex r1 r2 => exact (keeps_transferCell false r1.toXfer r2.toXfer s).completes
  | tap => exact (hs.writeCcr _).completes
  | tpa => exact (hs.set8 _ _).completes
  | tsx | tsy | txs | tys => exact (hs.set16 _ _).completes
  | xgdx | xgdy => exact ((hs.set16 _ _).set16 _ _).completes
  | tab | tba => exact ((hs.set8 _ _).setFlags (by simp)).completes
  -- Addition and subtraction
  | aba => exact (keeps_add8 _ _ _ s).completes
  | adca src | adcb src | adda src | addb src =>
    exact ((keeps_src8After src s).trans (keeps_add8 _ _ _ _)).completes
  | addd src => exact ((keeps_src16After src s).trans (keeps_add16 _ _ _)).completes
  | addx src | addy src => exact ((keeps_src16After src s).trans (keeps_add16X _ _ _)).onHcs12x
  | aded src | adex src | adey src => exact ((keeps_src16After src s).trans (keeps_addCarry16X _ _ _)).onHcs12x
  | sba => exact (keeps_sub8 _ _ _ s).completes
  | sbca src | sbcb src | suba src | subb src =>
    exact ((keeps_src8After src s).trans (keeps_sub8 _ _ _ _)).completes
  | subd src => exact ((keeps_src16After src s).trans (keeps_sub16 _ _ _)).completes
  | subx src | suby src => exact ((keeps_src16After src s).trans (keeps_sub16 _ _ _)).onHcs12x
  | sbed src | sbex src | sbey src => exact ((keeps_src16After src s).trans (keeps_subBorrow16 _ _ _)).onHcs12x
  | daa => exact (keeps_daa s).completes
  | abx | aby | ins | des => exact (hs.set16 _ _).completes
  | inx | iny | dex | dey => exact ((hs.set16 _ _).setFlags (by simp)).completes
  -- Increment, decrement, negate, complement
  | inc ea | dec ea | com ea => exact (keeps_modify8 ea _ _ s fun _ => by simp).completes
  | incw ea | decw ea | comw ea => exact (keeps_modify16 ea _ _ s fun _ => by simp).onHcs12x
  | inca | incb | deca | decb | coma | comb => exact (keeps_modifyReg8 _ _ _ s fun _ => by simp).completes
  | incx | incy | decx | decy | comx | comy => exact (keeps_modifyReg16 _ _ _ s fun _ => by simp).onHcs12x
  -- Negate, shift and rotate: a result with N, Z, V and C
  | neg ea | asl ea | asr ea | lsl ea | lsr ea | rol ea | ror ea => exact (keeps_alu8 ea _ s).completes
  | negw ea | aslw ea | asrw ea | lsrw ea | rolw ea | rorw ea => exact (keeps_alu16 ea _ s).onHcs12x
  | nega | negb | asla | aslb | asra | asrb | lsla | lslb | lsra | lsrb | rola | rolb | rora | rorb =>
    exact (keeps_aluReg8 _ _ s).completes
  | asld | lsld | lsrd => exact (keeps_aluReg16 _ _ s).completes
  | negx | negy | aslx | asly | asrx | asry | lsrx | lsry | rolx | roly | rorx | rory =>
    exact (keeps_aluReg16 _ _ s).onHcs12x
  -- Compare and test
  | cba => exact (keeps_compare _ _ _ s).completes
  | cmpa src | cmpb src => exact ((keeps_src8After src s).trans (keeps_compare _ _ _ _)).completes
  | cpd src | cps src | cpx src | cpy src => exact ((keeps_src16After src s).trans (keeps_compare _ _ _ _)).completes
  | cped src | cpes src | cpex src | cpey src =>
    exact ((keeps_src16After src s).trans (keeps_compareBorrow _ _ _)).onHcs12x
  | tst ea => exact ((keeps_afterMemByte ea s).setFlags (by simp)).completes
  | tstw ea => exact ((keeps_afterMemWord ea s).setFlags (by simp)).onHcs12x
  | tsta | tstb => exact (hs.setFlags (by simp)).completes
  | tstx | tsty => exact (hs.setFlags (by simp)).onHcs12x
  | bita src | bitb src => exact ((keeps_src8After src s).setFlags (by simp)).completes
  | bitx src | bity src => exact ((keeps_src16After src s).setFlags (by simp)).onHcs12x
  -- Logic, condition codes, bits of memory
  | anda src | andb src | oraa src | orab src | eora src | eorb src =>
    exact ((keeps_src8After src s).trans (keeps_logic8 _ _ _ _)).completes
  | andx src | andy src | orx src | ory src | eorx src | eory src =>
    exact ((keeps_src16After src s).trans (keeps_logic16 _ _ _ _)).onHcs12x
  | andcc ii => exact (hs.setCcr fun hx => by simp_all [flagOf]).completes
  | orcc ii => exact (hs.setCcr fun hx => by simp_all [flagOf, Flag.bit]).completes
  | clc | cli | clv | sec | sei | sev => exact (hs.setFlags (by simp)).completes
  | bclr ea mm | bset ea mm => exact (keeps_modify8 ea _ _ s fun _ => by simp).completes
  | btas ea mm => exact (keeps_modify8 ea _ _ s fun _ => by simp).onHcs12x
  -- Multiplication and division
  | mul => exact (keeps_mul s).completes
  | emul | emuls => exact (keeps_product32 _ s).completes
  | emacs hhll => exact (keeps_emacs hhll s).completes
  | ediv => exact (keeps_ediv s).completes
  | edivs => exact (keeps_edivs s).completes
  | fdiv => exact (keeps_fdiv s).completes
  | idiv => exact (keeps_idiv s).completes
  | idivs => exact (keeps_idivs s).completes
  -- Minimum, maximum, tables, fuzzy logic
  | maxa xb | mina xb => exact (keeps_extremum8 xb _ s).completes
  | maxm xb | minm xb => exact (keeps_extremumMem8 xb _ s).completes
  | emaxd xb | emind xb => exact (keeps_extremum16 xb _ s).completes
  | emaxm xb | eminm xb => exact (keeps_extremumMem16 xb _ s).completes
  | tbl xb => exact (keeps_tbl xb s).completes
  | etbl xb => exact (keeps_etbl xb s).completes
  | mem => exact (keeps_fuzzyMem s).completes
  | rev => exact (keeps_rev s).completes
  | revw => exact (keeps_revw s).completes
  | wav => exact (keeps_wav s).completes
  | wavr => exact (keeps_resumeWav s).completes
  -- Branches, loop primitives, jumps, calls and returns
  | bcc rr | bcs rr | beq rr | bge rr | bgt rr | bhi rr | bhs rr | ble rr | blo rr | bls rr | blt rr | bmi rr | bne rr
  | bpl rr | bra rr | brn rr | bvc rr | bvs rr => exact (hs.branchIf _ _).completes
  | lbcc qqrr | lbcs qqrr | lbeq qqrr | lbge qqrr | lbgt qqrr | lbhi qqrr | lbhs qqrr | lble qqrr | lblo qqrr
  | lbls qqrr | lblt qqrr | lbmi qqrr | lbne qqrr | lbpl qqrr | lbra qqrr | lbrn qqrr | lbvc qqrr | lbvs qqrr =>
    exact (hs.branchIf _ _).completes
  | brclr ea mm rr | brset ea mm rr => exact ((keeps_afterMemByte ea s).branchIf _ _).completes
  | dbeq r off | dbne r off | ibeq r off | ibne r off | tbeq r off | tbne r off =>
    exact ((hs.counterAdd r _).branchIf _ _).completes
  | bsr rr => exact ((hs.push16 _).jump _).completes
  | jsr ea => exact (((keeps_eaAfter ea s).push16 _).jump _).completes
  | call op => exact (keeps_call op s).completes
  | rtc => exact (keeps_rtc s).completes
  | rts => exact (hs.pulled16.jump _).completes
  | jmp ea => exact ((keeps_eaAfter ea s).jump _).completes
  -- The system instructions
  | nop => exact hs.completes
  | bgnd => exact (keeps_bgnd s).completes
  | swi => exact (hs.enter swiVector s.pc).completes
  | trap tn => exact (hs.enter trapVector s.pc).completes
  | rti => exact (keeps_returned s).completes
  | wai => exact (keeps_halted s .waiting).completes
  | stop => exact (keeps_stop s).completes

/-- Settles O8: by the families, each instruction completes and keeps what no operation breaks. -/
theorem everyInstructionCompletes : Obligations.EveryInstructionCompletes := by
  intro i s
  obtain ⟨t, hexec, hkeeps⟩ := exec_completes i s
  exact ⟨t, hexec, hkeeps.params, hkeeps.xMask, hkeeps.inv⟩

end Sys2Proof.Machine

/-! PROOFS. The scope family: every step keeps the invariant, never faults, and refuses only what decodes to nothing. -/

namespace Sys2Proof.Machine

/-! ### The fetch of an instruction -/

theorem State.touchedBytes_unchanged (s : State) (addr : Word) (n : Nat) :
    Unchanged [.devices] s (s.touchedBytes addr n) := by
  induction n with
  | zero => exact Unchanged.refl _ s
  | succ n ih => exact ih.trans (State.touched8_unchanged _ _)

theorem State.mayAccess_unchanged (s : State) (p : Place) (made : Bool) :
    Unchanged [.devices] s (s.mayAccess p made) := by
  unfold State.mayAccess
  split
  · split
    · exact s.accessed_unchanged _
    · exact Unchanged.refl _ s
  all_goals exact Unchanged.refl _ s

theorem State.prefetch_unchanged (s : State) (pcnext : Word) : Unchanged [.devices] s (s.prefetch pcnext) := by
  have hfold : ∀ (ks : List Nat) (u : State), Unchanged [.devices] s u →
      Unchanged [.devices] s (ks.foldl
        (fun u k => u.mayAccess (u.place (pcnext + BitVec.ofNat 16 k)) (Config.prefetched s.fresh k)) u) := by
    intro ks
    induction ks with
    | nil => exact fun u hu => hu
    | cons k ks ih => exact fun u hu => ih _ (hu.trans (u.mayAccess_unchanged _ _))
  exact hfold _ s (Unchanged.refl _ s)

/-- The fetch moves PC, and changes nothing else but the devices (R11, R93). -/
theorem State.fetched_unchanged (s : State) (n : Nat) : Unchanged [.pc, .devices, .refilled] s (s.fetched n) := by
  have hreads : Unchanged [.devices] s ((s.touchedBytes s.pc n).prefetch (s.pc + BitVec.ofNat 16 n)) :=
    (s.touchedBytes_unchanged s.pc n).trans (State.prefetch_unchanged _ _)
  have hpc : Unchanged [.pc, .refilled] ((s.touchedBytes s.pc n).prefetch (s.pc + BitVec.ofNat 16 n))
      (s.fetched n) := by
    intro p hp
    cases p with
    | pc | refilled => simp at hp
    | _ => rfl
  exact (hreads.mono (by simp)).trans (hpc.mono (by simp))

theorem keeps_fetched (s : State) (n : Nat) : Keeps s (s.fetched n) :=
  keeps_of_unchanged (s.fetched_unchanged n) (by simp)

/-- One instruction run completes, with its bookkeeping. -/
theorem State.runDecoded_completes (s : State) (i : Instr) (n : Nat) : Completes s (s.runDecoded i n) := by
  obtain ⟨t, hexec, hkeeps⟩ := exec_completes i (s.fetched n)
  rw [State.runDecoded_of_exec hexec]
  exact (((keeps_fetched s n).trans hkeeps).trans
    (keeps_of_unchanged (s.settle_adds t i _).same (by simp))).completes

/-! ### What a step keeps, and when it may set X -/

/-- The parameters stay, the invariant is kept, and X is set only with a cause. -/
structure KeepsUnless (cause : Prop) (s t : State) : Prop where
  params : t.params = s.params
  inv : s.Inv → t.Inv
  xMask : s.flag .x = false → t.flag .x = true → cause

theorem Keeps.unless {s t : State} (h : Keeps s t) (cause : Prop) : KeepsUnless cause s t :=
  ⟨h.params, h.inv, fun hs ht => by simp [h.xMask hs] at ht⟩

theorem KeepsUnless.mono {cause cause' : Prop} {s t : State} (h : KeepsUnless cause s t) (hc : cause → cause') :
    KeepsUnless cause' s t :=
  ⟨h.params, h.inv, fun hs ht => hc (h.xMask hs ht)⟩

theorem KeepsUnless.trans {cause : Prop} {s t u : State} (h : KeepsUnless cause s t) (h' : KeepsUnless cause t u) :
    KeepsUnless cause s u := by
  refine ⟨h'.params.trans h.params, h'.inv ∘ h.inv, fun hs hu => ?_⟩
  cases ht : t.flag .x with
  | false => exact h'.xMask ht hu
  | true => exact h.xMask hs ht

/-! ### Interrupts -/

theorem keepsUnless_vectored (s : State) (target : Word) (isXirq : Bool) :
    KeepsUnless (isXirq = true) s (s.vectored target isXirq) := by
  cases isXirq with
  | false => exact ((Keeps.refl s).vectored target).unless _
  | true => exact ⟨rfl, fun h => h.congr rfl rfl rfl rfl, fun _ _ => rfl⟩

theorem keepsUnless_enter (s : State) (vec : Word) (isXirq : Bool) (rtn : Word) :
    KeepsUnless (isXirq = true) s (s.enter vec isXirq rtn) :=
  ((((Keeps.refl s).touchedVector vec).pushFrame rtn).unless _).trans (keepsUnless_vectored _ _ isXirq)

theorem keeps_settleEntry (s : State) : Keeps s s.settleEntry := keeps_of_same rfl rfl rfl rfl rfl

theorem keepsUnless_interrupt (s : State) (r : Request) : KeepsUnless (r = .xirq) s (s.interrupt r) :=
  ((keepsUnless_enter s _ _ _).mono eq_of_beq).trans ((keeps_settleEntry _).unless _)

theorem keepsUnless_wake (s : State) (r : Request) : KeepsUnless (r = .xirq) s (s.wake r) :=
  ((((Keeps.refl s).touchedVector _).unless _).trans ((keepsUnless_vectored _ _ _).mono eq_of_beq)).trans
    ((keeps_settleEntry _).unless _)

theorem keepsUnless_waitingStep (s : State) : KeepsUnless (s.nextInterrupt = some .xirq) s s.waitingStep := by
  unfold State.waitingStep
  split
  next r hr => exact (keepsUnless_wake s r).mono fun h => h ▸ hr
  · exact (Keeps.refl s).unless _

theorem keepsUnless_stoppedStep (s : State) : KeepsUnless (s.nextInterrupt = some .xirq) s s.stoppedStep := by
  unfold State.stoppedStep
  split
  next r hr => exact (keepsUnless_wake s r).mono fun h => h ▸ hr
  · split
    · exact (keeps_of_same rfl rfl rfl rfl rfl : Keeps s { s with sp := _, runState := .running }).unless _
    · exact (Keeps.refl s).unless _

/-! ### Resets -/

theorem State.withResetValues_inv {s : State} (h : s.Inv) (rv : ResetValues) : (s.withResetValues rv).Inv where
  mem := by
    cases hm : rv.mem with
    | none => simpa [State.withResetValues, hm] using h.mem
    | some cells => simpa [State.withResetValues, hm] using memOfCells_wf cells
  gmem := by
    cases hm : rv.gmem with
    | none => simpa [State.withResetValues, hm] using h.gmem
    | some cells => simpa [State.withResetValues, hm] using memOfCells_wf cells
  gpage := Nat.mod_lt _ (Nat.two_pow_pos _)

theorem keepsUnless_takeReset (s : State) (r : Request) : KeepsUnless True s (s.takeReset r) where
  params := by simp [State.takeReset, State.withResetValues]
  inv h := ((State.withResetValues_inv h s.params.resetValues)).congr (by simp [State.takeReset])
    (by simp [State.takeReset]) (by simp [State.takeReset]) (by simp [State.takeReset])
  xMask _ _ := trivial

/-! ### What was under way, abandoned (R662) -/

theorem keeps_of_wavProgress {k : Nat} {w : WavLoop} {s t : State} (h : wavProgress k w s = some t) : Keeps s t := by
  simp only [wavProgress] at h
  split at h
  · cases h
  · cases h
    exact (keeps_wavPasses k (s, w)).trans (keeps_of_same rfl rfl rfl rfl rfl)

/-- The passes of a loop keep what no operation breaks. -/
theorem keeps_of_loopProgress {i : Instr} {k : Nat} {s t : State} (h : loopProgress i k s = some t) : Keeps s t := by
  unfold loopProgress at h
  split at h
  · split at h <;> cases h
    exact keeps_runPasses keeps_revPass k s
  · split at h <;> cases h
    exact keeps_runPasses keeps_revwPass k s
  · split at h
    · cases h
    · exact keeps_of_wavProgress h
  · split at h
    · cases h
    · split at h
      · cases h
      · exact (keeps_pulledFrame s).trans (keeps_of_wavProgress h)
  · cases h

theorem Keeps.getD {s t : State} {o : Option State} (ho : ∀ u, o = some u → Keeps s u) (ht : Keeps s t) :
    Keeps s (o.getD t) := by
  cases o with
  | none => exact ht
  | some u => exact ho u rfl

theorem keepsUnless_cutAt {s before last done : State} {between : List State} (postbytes : List Xb)
    (hbefore : KeepsUnless True s before) (hlast : KeepsUnless True s last)
    (hbetween : s.Inv → ∀ m ∈ between, m.Inv ∧ m.params = s.params) :
    KeepsUnless True s (s.cutAt before last done between postbytes) := by
  refine ⟨hlast.params, fun h => State.cutAt_inv postbytes fun m hm => ?_, fun _ _ => trivial⟩
  rcases List.mem_append.mp hm with hm | hm
  · rcases List.mem_cons.mp hm with rfl | hm
    · exact ⟨hbefore.inv h, hbefore.params⟩
    · exact hbetween h m hm
  · cases List.mem_singleton.mp hm
    exact ⟨hlast.inv h, hlast.params⟩

theorem State.abandonedIn_next (s : State) (i : Instr) (n k : Nat) :
    ∃ t, s.abandonedIn i n k = .next t ∧ KeepsUnless True s t := by
  have hu : Keeps s { s.fetched n with arrival := none } :=
    (keeps_fetched s n).trans (keeps_of_same rfl rfl rfl rfl rfl)
  obtain ⟨t, hexec, hkeeps⟩ := exec_completes i { s.fetched n with arrival := none }
  have hloop : ∀ j u, loopProgress i j { s.fetched n with arrival := none } = some u → Keeps s u :=
    fun j u hj => hu.trans (keeps_of_loopProgress hj)
  refine ⟨_, by rw [State.abandonedIn, hexec], keepsUnless_cutAt _ ?_ ?_ fun h m hm => ?_⟩
  · exact (Keeps.getD (hloop _) (Keeps.refl s)).unless _
  · exact (Keeps.getD (hloop _) (hu.trans hkeeps)).unless _
  · obtain ⟨hinv, hparams⟩ := betweenStores_inv (hu.inv h) hm
    exact ⟨hinv, hparams.trans hu.params⟩

/-- The bytes at PC are what the CPU would run next, and they decode to nothing. -/
structure State.RefusedAt (s : State) (e : DecodeError) : Prop where
  running : s.runState = .running
  interrupt : s.nextInterrupt = none
  error : decode s.params.variant s.fetchBytes = .error e

/-- What the CPU is doing is abandoned in some state, or is an encoding without a meaning. -/
theorem State.abandoned_cases (s : State) (k : Nat) :
    (∃ t, s.abandoned k = .next t ∧ KeepsUnless True s t) ∨
      ∃ e, s.RefusedAt e ∧ s.abandoned k = .refused (.undefinedEncoding e) := by
  cases hrun : s.runState with
  | waiting =>
    exact .inl ⟨s.cutAt s s.waitingStep s.waitingStep [] [], by simp only [State.abandoned, hrun],
      keepsUnless_cutAt [] ((Keeps.refl s).unless _) ((keepsUnless_waitingStep s).mono fun _ => trivial) (by simp)⟩
  | stopped =>
    exact .inl ⟨s.cutAt s s.stoppedStep s.stoppedStep [] [], by simp only [State.abandoned, hrun],
      keepsUnless_cutAt [] ((Keeps.refl s).unless _) ((keepsUnless_stoppedStep s).mono fun _ => trivial) (by simp)⟩
  | background => exact .inl ⟨s, by simp only [State.abandoned, hrun], (Keeps.refl s).unless _⟩
  | running =>
    cases hint : s.nextInterrupt with
    | some r =>
      exact .inl ⟨s.cutAt s (s.interrupt r) (s.interrupt r) (pushStages s s.pc) [],
        by simp only [State.abandoned, hrun, hint], keepsUnless_cutAt [] ((Keeps.refl s).unless _)
          ((keepsUnless_interrupt s r).mono fun _ => trivial) fun h m hm => pushStages_inv h s.pc hm⟩
    | none =>
      cases hdec : decode s.params.variant s.fetchBytes with
      | error e => exact .inr ⟨e, ⟨hrun, hint, hdec⟩, by simp only [State.abandoned, hrun, hint, hdec]⟩
      | ok d =>
        obtain ⟨t, ht, hkeeps⟩ := s.abandonedIn_next d.1 (longestInstruction - d.2.length) k
        exact .inl ⟨t, by simp only [State.abandoned, hrun, hint, hdec, ht], hkeeps⟩

theorem State.abandonedFor_cases (s : State) (k : Nat) (r : Request) :
    (∃ t, s.abandonedFor k r = .next t ∧ KeepsUnless True s t) ∨
      ∃ e, s.RefusedAt e ∧ s.abandonedFor k r = .refused (.undefinedEncoding e) := by
  rcases s.abandoned_cases k with ⟨t, ht, hkeeps⟩ | ⟨e, he, href⟩
  · refine .inl ⟨_, by rw [State.abandonedFor, ht], (hkeeps.trans ?_).trans (keepsUnless_takeReset _ r)⟩
    exact (keeps_of_same rfl rfl rfl rfl rfl : Keeps t { t with pending := s.pending, arrival := none }).unless _
  · exact .inr ⟨e, he, by rw [State.abandonedFor, href]⟩

/-! ### One step -/

theorem State.runInstruction_cases (s : State) :
    (∃ t, s.runInstruction = .next t ∧ Keeps s t) ∨
      ∃ e, decode s.params.variant s.fetchBytes = .error e ∧ s.runInstruction = .refused (.undefinedEncoding e) := by
  cases hdec : decode s.params.variant s.fetchBytes with
  | error e => exact .inr ⟨e, rfl, by rw [State.runInstruction, hdec]⟩
  | ok d =>
    obtain ⟨t, ht, hkeeps⟩ := s.runDecoded_completes d.1 (longestInstruction - d.2.length)
    exact .inl ⟨t, by rw [State.runInstruction_of_decode hdec, ht], hkeeps⟩

theorem State.runStateStep_cases (s : State) :
    (∃ t, s.runStateStep = .next t ∧
        KeepsUnless (s.nextInterrupt = some .xirq ∧ s.runState ≠ .background) s t) ∨
      ∃ e, s.RefusedAt e ∧ s.runStateStep = .refused (.undefinedEncoding e) := by
  cases hrun : s.runState with
  | waiting =>
    exact .inl ⟨_, by simp only [State.runStateStep, hrun],
      (keepsUnless_waitingStep s).mono fun h => ⟨h, by simp⟩⟩
  | stopped =>
    exact .inl ⟨_, by simp only [State.runStateStep, hrun],
      (keepsUnless_stoppedStep s).mono fun h => ⟨h, by simp⟩⟩
  | background => exact .inl ⟨s, by simp only [State.runStateStep, hrun], (Keeps.refl s).unless _⟩
  | running =>
    cases hint : s.nextInterrupt with
    | some r =>
      exact .inl ⟨_, by simp only [State.runStateStep, hrun, State.runningStep, hint],
        (keepsUnless_interrupt s r).mono fun h => ⟨congrArg some h, by simp⟩⟩
    | none =>
      rcases s.runInstruction_cases with ⟨t, ht, hkeeps⟩ | ⟨e, he, href⟩
      · exact .inl ⟨t, by simp only [State.runStateStep, hrun, State.runningStep, hint, ht], hkeeps.unless _⟩
      · exact .inr ⟨e, ⟨hrun, hint, he⟩, by simp only [State.runStateStep, hrun, State.runningStep, hint, href]⟩

/-- What may set the X mask bit: a reset, pending or arriving, or the entry to XIRQ (R49, R671). -/
def State.MaySetX (s : State) : Prop :=
  (∃ r, s.nextReset = some r) ∨ (∃ k r, s.arrivingReset = some (k, r)) ∨
    (s.nextInterrupt = some .xirq ∧ s.runState ≠ .background)

/-- A step answers a next state, or refuses an encoding that decodes to nothing (R19, R164). -/
theorem step_cases (s : State) :
    (∃ t, step s = .next t ∧ KeepsUnless s.MaySetX s t) ∨
      ∃ e, s.Ready ∧ s.RefusedAt e ∧ step s = .refused (.undefinedEncoding e) := by
  cases hreset : s.nextReset with
  | some r =>
    exact .inl ⟨_, by simp only [step, hreset], (keepsUnless_takeReset s r).mono fun _ => .inl ⟨r, hreset⟩⟩
  | none =>
    cases harr : s.arrivingReset with
    | some kr =>
      obtain ⟨k, r⟩ := kr
      rcases s.abandonedFor_cases k r with ⟨t, ht, hkeeps⟩ | ⟨e, he, href⟩
      · exact .inl ⟨t, by simp only [step, hreset, harr, ht], hkeeps.mono fun _ => .inr (.inl ⟨k, r, harr⟩)⟩
      · exact .inr ⟨e, ⟨he.running, hreset, he.interrupt⟩, he, by simp only [step, hreset, harr, href]⟩
    | none =>
      rcases s.runStateStep_cases with ⟨t, ht, hkeeps⟩ | ⟨e, he, href⟩
      · exact .inl ⟨t, by simp only [step, hreset, harr, ht], hkeeps.mono fun h => .inr (.inr h)⟩
      · exact .inr ⟨e, ⟨he.running, hreset, he.interrupt⟩, he, by simp only [step, hreset, harr, href]⟩

theorem keepsUnless_of_step {s t : State} (h : step s = .next t) : KeepsUnless s.MaySetX s t := by
  rcases step_cases s with ⟨u, hu, hkeeps⟩ | ⟨e, _, _, href⟩
  · cases hu.symm.trans h
    exact hkeeps
  · cases href.symm.trans h

/-- An encoding without a meaning is refused, also while a reset arrives. -/
theorem step_of_undefined {s : State} {e : DecodeError} (h : s.Ready)
    (he : decode s.params.variant s.fetchBytes = .error e) : step s = .refused (.undefinedEncoding e) := by
  cases harr : s.arrivingReset with
  | some kr =>
    simp only [step, h.reset, harr, State.abandonedFor, State.abandoned, h.running, h.interrupt, he]
  | none =>
    simp only [step, h.reset, harr, State.runStateStep, h.running, State.runningStep, h.interrupt,
      State.runInstruction, he]

/-- Settles O10, by the cases of a step. -/
theorem stepKeepsTheInvariant : Obligations.StepKeepsTheInvariant := by
  intro s t hinv hstep
  have h := keepsUnless_of_step hstep
  exact ⟨h.inv hinv, h.params⟩

/-- Settles O12, by the cases of a step. -/
theorem onlyResetOrXirqSetsTheXMask : Obligations.OnlyResetOrXirqSetsTheXMask :=
  fun _ _ hstep => (keepsUnless_of_step hstep).xMask

/-- Settles O7: there is no fault to answer, and refusals are by the cases of a step. -/
theorem stepRefusesOnlyUndefinedEncodings : Obligations.StepRefusesOnlyUndefinedEncodings := by
  refine fun s => ⟨fun f => f.casesOn, fun r => ⟨fun hr => ?_, ?_⟩⟩
  · rcases step_cases s with ⟨t, ht, _⟩ | ⟨e, hready, he, href⟩
    · cases ht.symm.trans hr
    · cases href.symm.trans hr
      exact ⟨hready, e, he.error, rfl⟩
  · rintro ⟨hready, e, he, rfl⟩
    exact step_of_undefined hready he

end Sys2Proof.Machine

/-! PROOFS. The scope family: the decoder reads back each operand layout that the encoder writes (R120, R122). -/

namespace Sys2Proof

/-! ### What a reader consumes -/

/-- In front of any bytes, the reader consumes just `bs` and answers `x`. -/
def Reads {α : Type} (r : Reader α) (bs : List Byte) (x : α) : Prop := ∀ rest, r (bs ++ rest) = .ok (x, rest)

section Readers

variable {α β : Type} {r : Reader α} {bs cs : List Byte} {x : α} {y : β}

theorem reads_done (x : α) : Reads (.done x) [] x := fun _ => rfl

theorem Reads.andThen {k : α → Reader β} (h : Reads r bs x) (h' : Reads (k x) cs y) :
    Reads (r.andThen k) (bs ++ cs) y := by
  intro rest
  rw [List.append_assoc, Reader.andThen, h]
  exact h' rest

/-- The last reader of a layout hands its value on. -/
theorem Reads.map {f : α → β} (h : Reads r bs x) : Reads (r.andThen fun a => .done (f a)) bs (f x) := by
  have := h.andThen (k := fun a => .done (f a)) (reads_done (f x))
  rwa [List.append_nil] at this

end Readers

theorem reads_byte (b : Byte) : Reads readByte [b] b := fun _ => rfl

theorem reads_word (w : Word) : Reads readWord [w.high, w.low] w := by
  have h : Reads readWord [w.high, w.low] (wordOf w.high w.low) := fun _ => rfl
  rwa [wordOf_high_low] at h

/-! ### The index postbyte (R130 to R137) -/

@[simp] theorem IdxBase.ofCode_code (base : IdxBase) : IdxBase.ofCode base.code = base := by cases base <;> rfl

@[simp] theorem IdxReg.ofCode_code (r : IdxReg) : IdxReg.ofCode r.code = r := by cases r <;> rfl

theorem const5_fields : ∀ (c : BitVec 2) (n : BitVec 5),
    (c ++ 0#1 ++ n).getLsbD 5 = false ∧ (c ++ 0#1 ++ n).extractLsb' 6 2 = c ∧
      (c ++ 0#1 ++ n).extractLsb' 0 5 = n := by
  decide

/-- A code of an auto-modified register is not 11, so that bits 7:5 are not 111 (R130 case b). -/
theorem auto_fields : ∀ (c : BitVec 2) (post : Bool) (k : BitVec 4), c ≠ 3#2 →
    (c ++ 1#1 ++ BitVec.ofBool post ++ k).getLsbD 5 = true ∧
      (c ++ 1#1 ++ BitVec.ofBool post ++ k).extractLsb' 5 3 ≠ 7#3 ∧
      (c ++ 1#1 ++ BitVec.ofBool post ++ k).extractLsb' 6 2 = c ∧
      (c ++ 1#1 ++ BitVec.ofBool post ++ k).getLsbD 4 = post ∧
      (c ++ 1#1 ++ BitVec.ofBool post ++ k).extractLsb' 0 4 = k := by
  decide

/-- The fields of a postbyte of the form `111rrzzz` (R130 case c). -/
theorem extended_fields : ∀ (c : BitVec 2) (z : BitVec 3),
    (7#3 ++ c ++ z).getLsbD 5 = true ∧ (7#3 ++ c ++ z).extractLsb' 5 3 = 7#3 ∧
      (7#3 ++ c ++ z).extractLsb' 3 2 = c ∧ (7#3 ++ c ++ z).extractLsb' 0 3 = z := by
  decide

/-- What follows a postbyte `111rrzzz`, by the field `zzz` (R130 case c). -/
def extendedReader (base : IdxBase) (z : BitVec 3) : Reader Xb :=
  match z.toNat with
  | 0 => readByte.andThen fun ff => .done (.const9 base (0#1 ++ ff))
  | 1 => readByte.andThen fun ff => .done (.const9 base (1#1 ++ ff))
  | 2 => readWord.andThen fun n => .done (.const16 base n)
  | 3 => readWord.andThen fun n => .done (.indirect16 base n)
  | 4 => .done (.acc .a base)
  | 5 => .done (.acc .b base)
  | 6 => .done (.acc .d base)
  | _ => .done (.indirectD base)

theorem reads_extended {base : IdxBase} {z : BitVec 3} {bs : List Byte} {xb : Xb}
    (h : Reads (extendedReader base z) bs xb) : Reads readXb ((7#3 ++ base.code ++ z) :: bs) xb := by
  intro rest
  obtain ⟨h5, h7, hbase, hz⟩ := extended_fields base.code z
  have hread : readXb ((7#3 ++ base.code ++ z) :: bs ++ rest) = extendedReader base z (bs ++ rest) := by
    simp only [readXb, Reader.andThen, readByte, List.cons_append, h5, h7, hbase, hz, IdxBase.ofCode_code,
      extendedReader]
    rfl
  rw [hread, h]

theorem const9_offset (n : BitVec 9) : n.extractLsb' 8 1 ++ n.extractLsb' 0 8 = n :=
  (BitVec.extractLsb'_append_extractLsb'_eq_extractLsb' rfl).trans BitVec.extractLsb'_eq_self

theorem reads_const9 (base : IdxBase) (s : BitVec 1) (ff : Byte) :
    Reads readXb [7#3 ++ base.code ++ 0#2 ++ s, ff] (.const9 base (s ++ ff)) := by
  have hcode : ∀ (c : BitVec 2) (s : BitVec 1), 7#3 ++ c ++ 0#2 ++ s = 7#3 ++ c ++ (0#2 ++ s) := by decide
  have hs : s = 0#1 ∨ s = 1#1 := by revert s; decide
  rw [hcode]
  obtain rfl | rfl := hs
  · exact reads_extended (reads_byte ff).map
  · exact reads_extended (reads_byte ff).map

theorem reads_xb (xb : Xb) : Reads readXb (encXb xb) xb := by
  cases xb with
  | const5 base n =>
    intro rest
    obtain ⟨h5, hbase, hn⟩ := const5_fields base.code n
    simp only [encXb, readXb, Reader.andThen, readByte, List.cons_append, List.nil_append, h5, hbase, hn,
      IdxBase.ofCode_code, if_true, Reader.done]
  | auto r post k =>
    intro rest
    have hr : r.code ≠ 3#2 := by cases r <;> decide
    obtain ⟨h5, h7, hreg, hpost, hk⟩ := auto_fields r.code post k hr
    simp only [encXb, readXb, Reader.andThen, readByte, List.cons_append, List.nil_append, h5, hreg, hpost, hk,
      IdxReg.ofCode_code, Bool.true_eq_false, if_false, ne_eq, h7, not_false_eq_true, if_true, Reader.done]
  | const9 base n =>
    have h := reads_const9 base (n.extractLsb' 8 1) (n.extractLsb' 0 8)
    rwa [const9_offset] at h
  | const16 base n => exact reads_extended (z := 2#3) (reads_word n).map
  | indirect16 base n => exact reads_extended (z := 3#3) (reads_word n).map
  | acc off base =>
    have hcode : ∀ (c d : BitVec 2), 7#3 ++ c ++ 1#1 ++ d = 7#3 ++ c ++ (1#1 ++ d) := by decide
    rw [encXb, hcode]
    cases off <;> exact reads_extended (reads_done _)
  | indirectD base => exact reads_extended (z := 7#3) (reads_done _)

theorem reads_xbOf {accepts : Xb → Bool} {e : DecodeError} {xb : Xb} (h : accepts xb = true) :
    Reads (readXbOf accepts e) (encXb xb) xb := by
  intro rest
  rw [readXbOf, Reader.andThen, reads_xb xb rest]
  simp only [h, if_true]
  rfl

theorem reads_dir (dd : Byte) : Reads readDir [dd] (.dir dd) := (reads_byte dd).map

theorem reads_ext (hhll : Word) : Reads readExt [hhll.high, hhll.low] (.ext hhll) := (reads_word hhll).map

theorem reads_idxDirect {xb : Xb} (h : Ea.notIndirect (.idx xb) = true) : Reads readIdxDirect (encXb xb) (.idx xb) :=
  (reads_xbOf (accepts := directForms) h).map

theorem reads_moveXb {v : Variant} {xb : Xb} (h : Ea.moveForm v (.idx xb) = true) :
    Reads (readMoveXb v) (encXb xb) (.idx xb) :=
  (reads_xbOf (accepts := fun xb => v.isHcs12x || xb.isPlainIdx) h).map

/-! ### The two opcode pages -/

/-- The bytes `lead` before an opcode take the decoder to a page of the opcode map. -/
def Leads (v : Variant) (lead : List Byte) (page : Byte → Reader Instr) : Prop :=
  ∀ op bs i, Reads (page op) bs i → Reads (decode v) (lead ++ op :: bs) i

theorem leads_page1 (v : Variant) : Leads v [] (page1 v) := fun _ _ _ h rest => h rest

theorem leads_page2 (v : Variant) : Leads v [0x18] (page2 v) := fun _ _ _ h rest => h rest

section Layouts

variable {v : Variant} {lead : List Byte} {page : Byte → Reader Instr} (hl : Leads v lead page)

include hl

/-! ### The operand layouts (R122) -/

theorem decodes_inh {op : Byte} {i : Instr} (h : page op = inh i) : Reads (decode v) (lead ++ [op]) i :=
  hl op [] i (h ▸ reads_done i)

theorem decodes_imm8 {op : Byte} {f : Byte → Instr} (h : page op = imm8 f) (b : Byte) :
    Reads (decode v) (lead ++ [op, b]) (f b) :=
  hl op [b] _ (h ▸ (reads_byte b).map)

theorem decodes_imm16 {op : Byte} {f : Word → Instr} (h : page op = imm16 f) (w : Word) :
    Reads (decode v) (lead ++ [op, w.high, w.low]) (f w) :=
  hl op [w.high, w.low] _ (h ▸ (reads_word w).map)

theorem decodes_dir {op : Byte} {f : Ea → Instr} (h : page op = dir f) (dd : Byte) :
    Reads (decode v) (lead ++ [op, dd]) (f (.dir dd)) :=
  hl op [dd] _ (h ▸ (reads_dir dd).map)

theorem decodes_ext {op : Byte} {f : Ea → Instr} (h : page op = ext f) (hhll : Word) :
    Reads (decode v) (lead ++ [op, hhll.high, hhll.low]) (f (.ext hhll)) :=
  hl op [hhll.high, hhll.low] _ (h ▸ (reads_ext hhll).map)

theorem decodes_idx {op : Byte} {accepts : Xb → Bool} {f : Xb → Instr} (h : page op = idx accepts f) {xb : Xb}
    (ha : accepts xb = true) : Reads (decode v) (lead ++ [op] ++ encXb xb) (f xb) := by
  rw [List.append_assoc]
  exact hl op (encXb xb) _ (h ▸ (reads_xbOf ha).map)

theorem decodes_ea {p q r : Byte} {f : Ea → Instr} (hp : page p = dir f) (hq : page q = ext f)
    (hr : page r = idx allForms fun xb => f (.idx xb)) (ea : Ea) :
    Reads (decode v) (encEa lead p q r ea) (f ea) := by
  cases ea with
  | dir dd => exact decodes_dir hl hp dd
  | ext hhll => exact decodes_ext hl hq hhll
  | idx xb => exact decodes_idx hl hr rfl

theorem decodes_eaNoDir {q r : Byte} {f : Ea → Instr} (hq : page q = ext f)
    (hr : page r = idx allForms fun xb => f (.idx xb)) {ea : Ea} (h : ea.notDirect = true) :
    Reads (decode v) (encEaNoDir lead q r ea) (f ea) := by
  cases ea with
  | dir dd => cases h
  | ext hhll => exact decodes_ext hl hq hhll
  | idx xb => exact decodes_idx hl hr rfl

theorem decodes_src8 {p q r t : Byte} {f : Src8 → Instr} (hp : page p = imm8 fun ii => f (.imm ii))
    (hq : page q = dir fun ea => f (.mem ea)) (hr : page r = ext fun ea => f (.mem ea))
    (ht : page t = idx allForms fun xb => f (.mem (.idx xb))) (src : Src8) :
    Reads (decode v) (encSrc8 lead p q r t src) (f src) := by
  cases src with
  | imm ii => exact decodes_imm8 hl hp ii
  | mem ea => exact decodes_ea hl (f := fun ea => f (.mem ea)) hq hr ht ea

theorem decodes_src16 {p q r t : Byte} {f : Src16 → Instr} (hp : page p = imm16 fun jjkk => f (.imm jjkk))
    (hq : page q = dir fun ea => f (.mem ea)) (hr : page r = ext fun ea => f (.mem ea))
    (ht : page t = idx allForms fun xb => f (.mem (.idx xb))) (src : Src16) :
    Reads (decode v) (encSrc16 lead p q r t src) (f src) := by
  cases src with
  | imm jjkk => exact decodes_imm16 hl hp jjkk
  | mem ea => exact decodes_ea hl (f := fun ea => f (.mem ea)) hq hr ht ea

/-- An operand after its opcode, and what follows the operand. -/
theorem decodes_eaThen {p q r : Byte} {tail : Reader Ea → Reader Instr} {post : List Byte} {f : Ea → Instr}
    (htail : ∀ operand bs ea, Reads operand bs ea → Reads (tail operand) (bs ++ post) (f ea))
    (hp : page p = tail readDir) (hq : page q = tail readExt) (hr : page r = tail readIdxDirect) {ea : Ea}
    (h : ea.notIndirect = true) : Reads (decode v) (encEa lead p q r ea ++ post) (f ea) := by
  cases ea with
  | dir dd =>
    rw [encEa, List.append_assoc]
    exact hl p _ _ (hp ▸ htail _ _ _ (reads_dir dd))
  | ext hhll =>
    rw [encEa, List.append_assoc]
    exact hl q _ _ (hq ▸ htail _ _ _ (reads_ext hhll))
  | idx xb =>
    rw [encEa, List.append_assoc, List.append_assoc]
    exact hl r _ _ (hr ▸ htail _ _ _ (reads_idxDirect h))

theorem decodes_mask {p q r : Byte} {f : Ea → Byte → Instr} (hp : page p = mask readDir f)
    (hq : page q = mask readExt f) (hr : page r = mask readIdxDirect f) {ea : Ea} (h : ea.notIndirect = true)
    (mm : Byte) : Reads (decode v) (encEa lead p q r ea ++ [mm]) (f ea mm) :=
  decodes_eaThen hl (tail := fun operand => mask operand f) (f := fun ea => f ea mm)
    (fun _ _ _ hea => hea.andThen (reads_byte mm).map) hp hq hr h

theorem decodes_maskRel {p q r : Byte} {f : Ea → Byte → Byte → Instr} (hp : page p = maskRel readDir f)
    (hq : page q = maskRel readExt f) (hr : page r = maskRel readIdxDirect f) {ea : Ea} (h : ea.notIndirect = true)
    (mm rr : Byte) : Reads (decode v) (encEa lead p q r ea ++ [mm, rr]) (f ea mm rr) :=
  decodes_eaThen hl (tail := fun operand => maskRel operand f) (f := fun ea => f ea mm rr)
    (fun _ _ _ hea => hea.andThen ((reads_byte mm).andThen (reads_byte rr).map)) hp hq hr h

end Layouts

/-! ### Moves (R262) -/

theorem decodes_moveImm {v : Variant} {α : Type} {imm : Reader α} {bs : List Byte} {u : α} {p q : Byte}
    {f : α → Ea → Instr} (himm : Reads imm bs u) (hp : page2 v p = moveImmExt imm f)
    (hq : page2 v q = moveImmIdx v imm f) {dst : Ea} (h : dst.moveForm v = true) :
    Reads (decode v) (encMoveImm p q bs dst) (f u dst) := by
  cases dst with
  | dir dd => cases h
  | ext hhll =>
    rw [encMoveImm, List.append_assoc]
    exact leads_page2 v p _ _ (hp ▸ himm.andThen (reads_ext hhll).map)
  | idx xb =>
    rw [encMoveImm, List.append_assoc]
    exact leads_page2 v q _ _ (hq ▸ (reads_moveXb h).andThen himm.map)

theorem decodes_moveMem {v : Variant} {p q r t : Byte} {f : Ea → Ea → Instr} (hp : page2 v p = moveExtExt f)
    (hq : page2 v q = moveExtIdx v f) (hr : page2 v r = moveIdxExt v f) (ht : page2 v t = moveIdxIdx v f)
    {src dst : Ea} (h : src.moveForm v = true) (h' : dst.moveForm v = true) :
    Reads (decode v) (encMoveMem p q r t src dst) (f src dst) := by
  cases src with
  | dir dd => cases h
  | ext a =>
    cases dst with
    | dir dd => cases h'
    | ext b => exact leads_page2 v p _ _ (hp ▸ (reads_ext a).andThen (reads_ext b).map)
    | idx xb =>
      rw [encMoveMem, List.append_assoc]
      exact leads_page2 v q _ _ (hq ▸ (reads_moveXb h').andThen (reads_ext a).map)
  | idx xa =>
    cases dst with
    | dir dd => cases h'
    | ext b =>
      rw [encMoveMem, List.append_assoc]
      exact leads_page2 v r _ _ (hr ▸ (reads_moveXb h).andThen (reads_ext b).map)
    | idx xb =>
      rw [encMoveMem, List.append_assoc]
      exact leads_page2 v t _ _ (ht ▸ (reads_moveXb h).andThen (reads_moveXb h').map)

theorem decodes_movb {v : Variant} {src : Src8} {dst : Ea} (h : src.moveForm v = true) (h' : dst.moveForm v = true) :
    Reads (decode v) (encode (.movb src dst)) (.movb src dst) := by
  cases src with
  | imm ii =>
    exact decodes_moveImm (f := fun u => .movb (.imm u)) (reads_byte ii) (by cases v <;> rfl) (by cases v <;> rfl) h'
  | mem ea =>
    exact decodes_moveMem (f := fun ea => .movb (.mem ea)) (by cases v <;> rfl) (by cases v <;> rfl)
      (by cases v <;> rfl) (by cases v <;> rfl) h h'

theorem decodes_movw {v : Variant} {src : Src16} {dst : Ea} (h : src.moveForm v = true)
    (h' : dst.moveForm v = true) : Reads (decode v) (encode (.movw src dst)) (.movw src dst) := by
  cases src with
  | imm jjkk =>
    exact decodes_moveImm (f := fun u => .movw (.imm u)) (reads_word jjkk) (by cases v <;> rfl) (by cases v <;> rfl) h'
  | mem ea =>
    exact decodes_moveMem (f := fun ea => .movw (.mem ea)) (by cases v <;> rfl) (by cases v <;> rfl)
      (by cases v <;> rfl) (by cases v <;> rfl) h h'

/-! ### CALL, loop primitives, transfers, traps -/

theorem reads_callIdx_direct {xb : Xb} (h : xb.isIndirect = false) (pg : Byte) :
    Reads callIdx (encXb xb ++ [pg]) (.call (.direct (.idx xb) pg)) := by
  refine (reads_xb xb).andThen ?_
  simp only [h, Bool.false_eq_true, if_false]
  exact (reads_byte pg).map

theorem reads_callIdx_indirect {xb : Xb} (h : xb.isIndirect = true) :
    Reads callIdx (encXb xb) (.call (.indirect xb)) := by
  intro rest
  rw [callIdx, Reader.andThen, reads_xb xb rest]
  simp only [h, if_true]
  rfl

theorem decodes_call (v : Variant) {op : CallOp} (h : op.wellFormed = true) :
    Reads (decode v) (encode (.call op)) (.call op) := by
  cases op with
  | direct ea pg =>
    cases ea with
    | dir dd => cases h
    | ext hhll => exact leads_page1 v 0x4A _ _ ((reads_ext hhll).andThen (reads_byte pg).map)
    | idx xb =>
      have hdirect : xb.isIndirect = false := by
        simpa [CallOp.wellFormed, Ea.notDirect, Ea.notIndirect] using h
      exact leads_page1 v 0x4B _ _ (reads_callIdx_direct hdirect pg)
  | indirect xb => exact leads_page1 v 0x4B _ _ (reads_callIdx_indirect h)

theorem loopPostbyte_fields : ∀ (sel : BitVec 3) (sign : BitVec 1) (c : BitVec 3),
    (sel ++ sign ++ 0#1 ++ c).getLsbD 3 = false ∧ (sel ++ sign ++ 0#1 ++ c).extractLsb' 0 3 = c ∧
      (sel ++ sign ++ 0#1 ++ c).extractLsb' 5 3 = sel ∧ (sel ++ sign ++ 0#1 ++ c).extractLsb' 4 1 = sign := by
  decide

@[simp] theorem LoopReg.ofCode_code (r : LoopReg) : LoopReg.ofCode r.code = some r := by cases r <;> rfl

theorem reads_loop {sel : BitVec 3} {f : LoopReg → BitVec 9 → Instr} (hsel : ∀ r off, loopOf sel r off = some (f r off))
    (r : LoopReg) (off : BitVec 9) :
    Reads loop [sel ++ off.extractLsb' 8 1 ++ 0#1 ++ r.code, off.extractLsb' 0 8] (f r off) := by
  intro rest
  obtain ⟨h3, hcode, hkind, hsign⟩ := loopPostbyte_fields sel (off.extractLsb' 8 1) r.code
  simp only [loop, Reader.andThen, readByte, List.cons_append, List.nil_append, h3, hcode, hkind, hsign,
    Bool.false_eq_true, if_false, LoopReg.ofCode_code, const9_offset, hsel, Reader.done]

theorem decodes_loop (v : Variant) {sel : BitVec 3} {f : LoopReg → BitVec 9 → Instr}
    (hsel : ∀ r off, loopOf sel r off = some (f r off)) (r : LoopReg) (off : BitVec 9) :
    Reads (decode v) (encLoop sel r off) (f r off) :=
  leads_page1 v 0x04 _ _ (reads_loop hsel r off)

theorem transferPostbyte_fields : ∀ (exg alt : Bool) (c d : BitVec 3),
    (BitVec.ofBool exg ++ c ++ BitVec.ofBool alt ++ d).getLsbD 7 = exg ∧
      (BitVec.ofBool exg ++ c ++ BitVec.ofBool alt ++ d).getLsbD 3 = alt ∧
      (BitVec.ofBool exg ++ c ++ BitVec.ofBool alt ++ d).extractLsb' 4 3 = c ∧
      (BitVec.ofBool exg ++ c ++ BitVec.ofBool alt ++ d).extractLsb' 0 3 = d := by
  decide

@[simp] theorem XferReg.ofCode_code (r : XferReg) : XferReg.ofCode r.code = r := by cases r <;> rfl

theorem reads_transfer {v : Variant} (exg : Bool) (r1 r2 : XferReg) {alt : Bool} (h : (!alt || v.isHcs12x) = true) :
    Reads (transfer v) [transferPostbyte exg r1 alt r2] (if exg then .exg r1 r2 alt else .tfr r1 r2 alt) := by
  intro rest
  obtain ⟨h7, h3, hc, hd⟩ := transferPostbyte_fields exg alt r1.code r2.code
  have hok : (alt && !v.isHcs12x) = false := by cases alt <;> simp_all
  simp only [transfer, transferPostbyte, Reader.andThen, readByte, List.cons_append, List.nil_append, h7, h3, hc, hd,
    XferReg.ofCode_code, hok, Bool.false_eq_true, if_false]
  cases exg <;> rfl

theorem decodes_transfer {v : Variant} (exg : Bool) (r1 r2 : XferReg) {alt : Bool}
    (h : (!alt || v.isHcs12x) = true) :
    Reads (decode v) [0xB7, transferPostbyte exg r1 alt r2] (if exg then .exg r1 r2 alt else .tfr r1 r2 alt) :=
  leads_page1 v 0xB7 _ _ (reads_transfer exg r1 r2 h)

/-- Every page-2 opcode that the map of the variant labels TRAP reads so (R145). -/
theorem page2_trap {v : Variant} {tn : Byte} (h : v.trapNumber tn = true) : page2 v tn = inh (.trap tn) := by
  cases v with
  | hcs12 => rw [page2, if_pos (by simpa [Variant.isHcs12x] using h)]
  | hcs12x =>
    have hcells : ∀ n ∈ [0x30, 0x31, 0x32, 0x33, 0x34, 0x49, 0x4A, 0x4B, 0x4C, 0x4D, 0x4E, 0x4F, 0x59, 0x81, 0x86,
        0x91, 0xA1, 0xA7, 0xB1, 0xB7, 0xC1, 0xC6, 0xCC, 0xCD, 0xCE, 0xCF, 0xD1, 0xE1, 0xF1],
        page2 .hcs12x (BitVec.ofNat 8 n) = inh (.trap (BitVec.ofNat 8 n)) := by
      simp only [List.forall_mem_cons]
      refine ⟨rfl, rfl, rfl, rfl, rfl, rfl, rfl, rfl, rfl, rfl, rfl, rfl, rfl, rfl, rfl, rfl, rfl, rfl, rfl, rfl, rfl,
        rfl, rfl, rfl, rfl, rfl, rfl, rfl, rfl, by simp⟩
    have hcell := hcells tn.toNat (List.contains_iff_mem.mp h)
    rwa [BitVec.ofNat_toNat, BitVec.setWidth_eq] at hcell

theorem Variant.eq_hcs12x {v : Variant} (h : v.isHcs12x = true) : v = .hcs12x := by
  cases v with
  | hcs12 => cases h
  | hcs12x => rfl

end Sys2Proof

/-! PROOFS. The scope family: decoding undoes encoding, and an instruction in memory is the one that runs. -/

namespace Sys2Proof

/-! ### Decoding undoes encoding (R120) -/

/-- By the operand layouts: of each instruction, the cells of its opcodes. -/
theorem decode_encode (v : Variant) (i : Instr) (hwf : i.wellFormed v = true) (hcore : i.isAlias = false) :
    Reads (decode v) (encode i) i := by
  have h1 := leads_page1 v
  have h2 := leads_page2 v
  have hx : v.isHcs12x = true → Leads v [0x18] (page2 .hcs12x) := fun h => Variant.eq_hcs12x h ▸ leads_page2 _
  have hxEa : ∀ {b : Bool}, (v.isHcs12x && b) = true → Leads v [0x18] (page2 .hcs12x) ∧ b = true := fun h =>
    (Bool.and_eq_true_iff.mp h).imp_left hx
  cases i with
  -- Words that the decoder gives to another mnemonic (R171)
  | sex _ _ | lsl _ | bhs _ | blo _ | lbhs _ | lblo _ | tap | tpa | tsx | tsy | txs | tys | xgdx | xgdy | abx | aby
  | ins | des | clc | cli | clv | sec | sei | sev | lsla | lslb | lsld => cases hcore
  -- Page 1
  | ldaa src | ldab src | adca src | adcb src | adda src | addb src | sbca src | sbcb src | suba src | subb src
  | cmpa src | cmpb src | bita src | bitb src | anda src | andb src | oraa src | orab src | eora src | eorb src =>
    exact decodes_src8 h1 rfl rfl rfl rfl src
  | ldd src | lds src | ldx src | ldy src | addd src | subd src | cpd src | cps src | cpx src | cpy src =>
    exact decodes_src16 h1 rfl rfl rfl rfl src
  | staa ea | stab ea | std ea | sts ea | stx ea | sty ea | jsr ea => exact decodes_ea h1 rfl rfl rfl ea
  | clr ea | inc ea | dec ea | neg ea | tst ea | com ea | asl ea | asr ea | lsr ea | rol ea | ror ea | jmp ea =>
    exact decodes_eaNoDir h1 rfl rfl hwf
  | leas xb | leax xb | leay xb => exact decodes_idx h1 (accepts := directForms) rfl hwf
  | andcc b | orcc b | bcc b | bcs b | beq b | bge b | bgt b | bhi b | ble b | bls b | blt b | bmi b | bne b | bpl b
  | bra b | brn b | bvc b | bvs b | bsr b => exact decodes_imm8 h1 rfl b
  | bclr ea mm | bset ea mm => exact decodes_mask h1 rfl rfl rfl hwf mm
  | brclr ea mm rr | brset ea mm rr => exact decodes_maskRel h1 rfl rfl rfl hwf mm rr
  | dbeq r off | dbne r off | ibeq r off | ibne r off | tbeq r off | tbne r off =>
    exact decodes_loop v (fun _ _ => rfl) r off
  | tfr r1 r2 alt => exact decodes_transfer false r1 r2 hwf
  | exg r1 r2 alt => exact decodes_transfer true r1 r2 hwf
  | call op => exact decodes_call v hwf
  | clra | clrb | psha | pshb | pshc | pshd | pshx | pshy | pula | pulb | pulc | puld | pulx | puly | inca | incb | inx
  | iny | deca | decb | dex | dey | nega | negb | tsta | tstb | coma | comb | asla | aslb | asld | asra | asrb | lsra
  | lsrb | lsrd | rola | rolb | rora | rorb | mul | emul | ediv | mem | wavr | rtc | rts | nop | bgnd | swi | rti
  | wai => exact decodes_inh h1 rfl
  -- Page 2 of both variants
  | movb src dst =>
    obtain ⟨hsrc, hdst⟩ := Bool.and_eq_true_iff.mp hwf
    exact decodes_movb hsrc hdst
  | movw src dst =>
    obtain ⟨hsrc, hdst⟩ := Bool.and_eq_true_iff.mp hwf
    exact decodes_movw hsrc hdst
  | maxa xb | maxm xb | mina xb | minm xb | emaxd xb | emaxm xb | emind xb | eminm xb =>
    exact decodes_idx h2 (accepts := allForms) (by cases v <;> rfl) rfl
  | tbl xb | etbl xb => exact decodes_idx h2 (accepts := plainForms) (by cases v <;> rfl) hwf
  | emacs w | lbcc w | lbcs w | lbeq w | lbge w | lbgt w | lbhi w | lble w | lbls w | lblt w | lbmi w | lbne w | lbpl w
  | lbra w | lbrn w | lbvc w | lbvs w => exact decodes_imm16 h2 (by cases v <;> rfl) w
  | tab | tba | aba | sba | daa | cba | emuls | edivs | fdiv | idiv | idivs | rev | revw | wav | stop =>
    exact decodes_inh h2 (by cases v <;> rfl)
  | trap tn => exact decodes_inh h2 (page2_trap hwf)
  -- Page 2 of HCS12X
  | addx src | addy src | aded src | adex src | adey src | sbed src | sbex src | sbey src | subx src | suby src
  | cped src | cpes src | cpex src | cpey src | bitx src | bity src | andx src | andy src | orx src | ory src
  | eorx src | eory src => exact decodes_src16 (hx hwf) rfl rfl rfl rfl src
  | gldaa ea | gldab ea | gldd ea | glds ea | gldx ea | gldy ea | gstaa ea | gstab ea | gstd ea | gsts ea | gstx ea
  | gsty ea => exact decodes_ea (hx hwf) rfl rfl rfl ea
  | clrw ea | incw ea | decw ea | negw ea | tstw ea | comw ea | aslw ea | asrw ea | lsrw ea | rolw ea | rorw ea =>
    obtain ⟨hl, hea⟩ := hxEa hwf
    exact decodes_eaNoDir hl rfl rfl hea
  | btas ea mm =>
    obtain ⟨hl, hea⟩ := hxEa hwf
    exact decodes_mask hl rfl rfl rfl hea mm
  | clrx | clry | pshcw | pulcw | incx | incy | decx | decy | negx | negy | tstx | tsty | comx | comy | aslx | asly
  | asrx | asry | lsrx | lsry | rolx | roly | rorx | rory => exact decodes_inh (hx hwf) rfl

/-- Every well-formed instruction has at least one byte and no more than a step fetches (R122, R261). -/
theorem encode_length (i : Instr) : Laws.EncodedLength.Statement i := by
  open Laws.EncodedLength in
  exact Instr.casesOn (motive := Statement) i
    ldaa ldab ldd lds ldx ldy staa stab std sts stx sty gldaa gldab gldd glds gldx gldy gstaa gstab gstd gsts gstx
    gsty leas leax leay clr clrw movb movw tfr exg sex adca adcb adda addb addd addx addy aded adex adey sbca sbcb
    sbed sbex sbey suba subb subd subx suby inc incw dec decw neg negw cmpa cmpb cpd cps cpx cpy cped cpes cpex cpey
    tst tstw bita bitb bitx bity anda andb andx andy oraa orab orx ory eora eorb eorx eory com comw andcc orcc bclr
    bset btas asl aslw asr asrw lsl lsr lsrw rol rolw ror rorw emacs maxa maxm mina minm emaxd emaxm emind eminm tbl
    etbl bcc bcs beq bge bgt bhi bhs ble blo bls blt bmi bne bpl bra brn bvc bvs lbcc lbcs lbeq lbge lbgt lbhi lbhs
    lble lblo lbls lblt lbmi lbne lbpl lbra lbrn lbvc lbvs brclr brset dbeq dbne ibeq ibne tbeq tbne bsr jsr call jmp
    trap clra clrb clrx clry psha pshb pshc pshcw pshd pshx pshy pula pulb pulc pulcw puld pulx puly tap tpa tsx tsy
    txs tys xgdx xgdy tab tba aba abx aby sba daa inca incb incx incy inx iny ins deca decb decx decy dex dey des
    nega negb negx negy cba tsta tstb tstx tsty coma comb comx comy clc cli clv sec sei sev asla aslb asld aslx asly
    asra asrb asrx asry lsla lslb lsld lsra lsrb lsrd lsrx lsry rola rolb rolx roly rora rorb rorx rory mul emul
    emuls ediv edivs fdiv idiv idivs mem rev revw wav wavr rtc rts nop bgnd swi rti wai stop

namespace Machine

/-! ### An instruction whose bytes lie in memory -/

theorem State.touchedBytes_eq {s : State} {addr : Word} {n : Nat} (h : s.NoDevice addr n) {k : Nat} (hk : k ≤ n) :
    s.touchedBytes addr k = s := by
  induction k with
  | zero => rfl
  | succ k ih =>
    rw [State.touchedBytes, ih (by omega)]
    exact State.touched8_eq (h k (by omega))

/-- Without older bytes in the queue, what is fetched is what lies in memory (R61, R91). -/
theorem State.fetchByte_of_queue_nil {s : State} (h : s.queue = []) (addr : Word) :
    s.fetchByte addr = s.read8 addr := by
  simp [State.fetchByte, State.staleBytes, h]

theorem State.length_fetchBytes (s : State) : s.fetchBytes.length = longestInstruction := by
  simp [State.fetchBytes]

/-- The bytes that lie in memory from PC on, none of them a device register, are the first that are fetched. -/
theorem State.fetchBytes_of_holds {s : State} {bytes : List Byte} (hq : s.queue = [])
    (hdev : s.NoDevice s.pc bytes.length) (hmem : s.Holds s.pc bytes) (hlen : bytes.length ≤ longestInstruction) :
    ∃ rest, s.fetchBytes = bytes ++ rest ∧ longestInstruction - rest.length = bytes.length := by
  refine ⟨s.fetchBytes.drop bytes.length, ?_, ?_⟩
  · rw [← List.take_append_drop bytes.length s.fetchBytes]
    congr 1
    · refine List.ext_getElem (by simp [State.length_fetchBytes, hlen]) fun k _ hk => ?_
      simp only [List.getElem_take, State.fetchBytes, List.getElem_map, List.getElem_range]
      rw [State.touchedBytes_eq hdev hk.le, State.fetchByte_of_queue_nil hq, hmem k hk]
    · simp
  · rw [List.length_drop, State.length_fetchBytes]
    omega

/-- Settles O6: decoding undoes encoding, and every instruction completes. -/
theorem instructionInMemoryRuns : Obligations.InstructionInMemoryRuns := by
  intro s i hquiet hqueue hwf hcore hdev hmem
  have hlen : (encode i).length ≤ longestInstruction := (encode_length i _ hwf).2
  obtain ⟨rest, hfetch, hcount⟩ := State.fetchBytes_of_holds hqueue hdev hmem hlen
  have hdecode : decode s.params.variant s.fetchBytes = .ok (i, rest) := by
    rw [hfetch]
    exact decode_encode s.params.variant i hwf hcore rest
  obtain ⟨t, hexec, _⟩ := exec_completes i (s.fetched (encode i).length)
  have hexec' : exec i (s.fetched (longestInstruction - rest.length)) = .next t := by rw [hcount, hexec]
  obtain ⟨v, hstep, hadds⟩ := stepRunsTheDecodedInstruction s i rest t hquiet hdecode hexec'
  rw [hcount] at hadds
  exact ⟨rfl, s.fetched_unchanged _, t, v, hexec, hstep, hadds⟩

end Machine

end Sys2Proof

/-! PROOFS. The state family: the state at reset, which request is taken, and what the taking of a reset leaves. -/

namespace Sys2Proof.Machine

/-! ### The state at reset (R65, R700) -/

/-- Settles O11: every byte of the empty memory is $00, and with it the reset vector. -/
theorem resetStateIsAsTheSpecSays : Obligations.ResetStateIsAsTheSpecSays :=
  ⟨⟨memWf_nil, memWf_nil, Nat.two_pow_pos _⟩, rfl, rfl, rfl, rfl, rfl, rfl⟩

/-! ### Recognition (R665 to R667) -/

/-- Of the resets power-on comes first, then clock monitor, then COP (R667). -/
theorem State.nextReset_eq (s : State) :
    s.nextReset =
      if .por ∈ s.pending then some .por
      else if .clockMonitor ∈ s.pending then some .clockMonitor
      else if .cop ∈ s.pending then some .cop
      else none := by
  simp only [State.nextReset, List.find?_cons, List.find?_nil, List.contains_eq_mem]
  by_cases hpor : Request.por ∈ s.pending
  · simp [hpor]
  by_cases hclock : Request.clockMonitor ∈ s.pending
  · simp [hpor, hclock]
  by_cases hcop : Request.cop ∈ s.pending <;> simp [hpor, hclock, hcop]

/-- A source of the platform is passed over where it is a reset, not pending or not enabled. -/
theorem State.passedOver_iff {s : State} {r : Request} (hr : r ∈ s.params.irqSources) :
    (s.pending.contains r && s.interruptible r) = false ↔
      (isResetRequest r = false → r ∈ s.pending → s.enabled r = false) := by
  simp only [State.interruptible, List.contains_eq_mem, hr]
  by_cases hp : r ∈ s.pending <;> cases isResetRequest r <;> simp [hp]

/-- No interrupt is taken exactly when every source is passed over. -/
theorem State.nextInterrupt_eq_none_iff (s : State) :
    s.nextInterrupt = none ↔
      ∀ r ∈ s.params.irqSources, isResetRequest r = false → r ∈ s.pending → s.enabled r = false := by
  rw [State.nextInterrupt, List.find?_eq_none]
  exact forall₂_congr fun r hr => by rw [Bool.not_eq_true, State.passedOver_iff hr]

/-- The interrupt taken is the first source that is not passed over. -/
theorem State.nextInterrupt_of_first {s : State} {first later : List Request} {r : Request}
    (hsources : s.params.irqSources = first ++ r :: later) (hr : isResetRequest r = false) (hpending : r ∈ s.pending)
    (henabled : s.enabled r = true)
    (hfirst : ∀ q ∈ first, isResetRequest q = false → q ∈ s.pending → s.enabled q = false) :
    s.nextInterrupt = some r := by
  refine List.find?_eq_some_iff_append.mpr ⟨?_, first, later, hsources, fun q hq => ?_⟩
  · simp [State.interruptible, hsources, hr, hpending, henabled]
  · have hmem : q ∈ s.params.irqSources := hsources ▸ List.mem_append_left _ hq
    rw [(State.passedOver_iff hmem).mpr (hfirst q hq), Bool.not_false]

/-- Settles O15: both selections are searches for the first request of a list. -/
theorem recognitionOrder : Obligations.RecognitionOrder := by
  intro s
  refine ⟨fun h => ?_, fun h h' => ?_, fun h h' h'' => ?_, fun h h' h'' => ?_, rfl, rfl, fun _ => rfl,
    fun _ _ _ => State.nextInterrupt_of_first, s.nextInterrupt_eq_none_iff⟩
  all_goals simp [State.nextReset_eq, *]

/-! ### The reset sequence (R65, R700) -/

/-- The value that a reset gives a flag, if it gives one: S, X and I are set, the others as `ResetValues` says. -/
def givenFlag (rv : ResetValues) : Flag → Option Bool
  | .s | .x | .i => some true
  | .h => rv.h
  | .n => rv.n
  | .z => rv.z
  | .v => rv.v
  | .c => rv.c

@[simp] theorem flagOf_resetFlag (k : Byte) (f g : Flag) (v : Option Bool) :
    flagOf (resetFlag k f v) g = if f = g then v.getD (flagOf k g) else flagOf k g := by
  cases v <;> simp [resetFlag]

theorem flagOf_resetCcr (rv : ResetValues) (k : Byte) (f : Flag) :
    flagOf (resetCcr rv k) f = (givenFlag rv f).getD (flagOf k f) := by
  cases f <;> simp [resetCcr, givenFlag]

/-- A number in range stays where none is given, and one that is given is narrowed. -/
theorem getD_mod_of_lt {given : Option Nat} {old m : Nat} (h : old < m) :
    given.getD old % m = (given.map (· % m)).getD old := by
  cases given with
  | none => exact Nat.mod_eq_of_lt h
  | some v => rfl

/-- Once the values of `ResetValues` are in place, the reset sequence reads the vector and starts the CPU there. -/
theorem State.takeReset_unchanged (s : State) (r : Request) :
    Unchanged [.pc, .runState, .pending, .queue, .refilled, .wavFrames, .fresh, .devices]
      (s.withResetValues s.params.resetValues) (s.takeReset r) := by
  intro p hp
  cases p with
  | pc | runState | pending | queue | refilled | wavFrames | fresh | devices => simp at hp
  | _ => simp [Part.same, State.takeReset]

theorem State.flag_takeReset (s : State) (r : Request) (f : Flag) :
    (s.takeReset r).flag f = (givenFlag s.params.resetValues f).getD (s.flag f) :=
  (State.flag_eq_of_ccr (s.takeReset_unchanged r .ccr (by simp)) f).trans (flagOf_resetCcr _ s.ccr f)

/-- Everything the reset sequence does. -/
theorem State.takeReset_taken (s : State) (r : Request) : ResetTaken r s (s.takeReset r) := by
  have hsame := s.takeReset_unchanged r
  exact {
    masks := ⟨s.flag_takeReset r .s, s.flag_takeReset r .x, s.flag_takeReset r .i⟩
    pc := rfl
    running := rfl
    pending := fun q => by simp [State.takeReset]
    a := hsame .a (by simp)
    b := hsame .b (by simp)
    x := hsame .x (by simp)
    y := hsame .y (by simp)
    sp := hsame .sp (by simp)
    ccrh := hsame .ccrh (by simp)
    ppage := hsame .ppage (by simp)
    gpage := fun hgpage => (hsame .gpage (by simp)).trans (getD_mod_of_lt hgpage)
    tmp1 := fun v hv => (hsame .tmp1 (by simp)).trans (by simp [State.withResetValues, hv])
    tmp2 := fun v hv => (hsame .tmp2 (by simp)).trans (by simp [State.withResetValues, hv])
    tmp3 := fun v hv => (hsame .tmp3 (by simp)).trans (by simp [State.withResetValues, hv])
    flagH := s.flag_takeReset r .h
    flagN := s.flag_takeReset r .n
    flagZ := s.flag_takeReset r .z
    flagV := s.flag_takeReset r .v
    flagC := s.flag_takeReset r .c
    mem := hsame .mem (by simp)
    gmem := hsame .gmem (by simp) }

/-! ### A reset within what the CPU is doing (R662) -/

/-- A first value that stands among the others too adds nothing to the choice. -/
theorem chosen_self_mem {α : Type} (n : Nat) (v : α) (others : List α) :
    chosen n v (v :: others) ∈ v :: others := by
  simpa using chosen_mem n v (v :: others)

/-- The state in which something without a loop is abandoned, with the requests as they were. -/
theorem State.cutAt_partWay {s done : State} (between : List State) (postbytes : List Xb)
    (hparams : done.params = s.params) :
    PartWay postbytes between s done
      { s.cutAt s done done between postbytes with pending := s.pending, arrival := none } where
  a := List.mem_pair.mp (chosen_self_mem _ s.a [done.a])
  b := List.mem_pair.mp (chosen_self_mem _ s.b [done.b])
  x := chosen_self_mem _ s.x _
  y := chosen_self_mem _ s.y _
  sp := chosen_mem _ s.sp _
  flags f := by
    have hmem := flagOf_partlyFlagged s.ccr [s.ccr, done.ccr, done.ccr] (Config.cutShort done.fresh) f
    simpa [State.cutAt, State.flag] using hmem
  ccrh := List.mem_pair.mp (chosen_mem _ s.ccrh [done.ccrh])
  memory := s.cutAt_stored s done done between postbytes
  devices h := if_pos h
  pending := rfl
  params := hparams

/-- What the CPU was doing is abandoned in the state `c`, and the reset is taken from there. -/
theorem step_of_abandoned {s c : State} {k : Nat} {r : Request} (hreset : s.nextReset = none)
    (harr : s.arrivingReset = some (k, r)) (h : s.abandoned k = .next c) :
    ∃ t, step s = .next t ∧ ResetTaken r { c with pending := s.pending, arrival := none } t :=
  ⟨_, by simp only [step, hreset, harr, State.abandonedFor, h], State.takeReset_taken _ r⟩

/-- A reset within something without a loop is taken part way through it. -/
theorem resetTaken_partWay {s done : State} {k : Nat} {r : Request} {between : List State} {postbytes : List Xb}
    (hreset : s.nextReset = none) (harr : s.arrivingReset = some (k, r)) (hparams : done.params = s.params)
    (h : s.abandoned k = .next (s.cutAt s done done between postbytes)) :
    ∃ c t, PartWay postbytes between s done c ∧ step s = .next t ∧ ResetTaken r c t := by
  obtain ⟨t, hstep, htaken⟩ := step_of_abandoned hreset harr h
  exact ⟨_, t, State.cutAt_partWay between postbytes hparams, hstep, htaken⟩

/-- Only an instruction with commas has a loop to be abandoned in. -/
theorem loopProgress_of_no_commas {i : Instr} (hi : hasCommas i = false) (k : Nat) (s : State) :
    loopProgress i k s = none := by
  unfold loopProgress
  split
  iterate 4 cases hi
  rfl

theorem State.abandonedIn_of_no_commas {s t : State} {i : Instr} {n : Nat} (hi : hasCommas i = false) (k : Nat)
    (hexec : exec i { s.fetched n with arrival := none } = .next t) :
    s.abandonedIn i n k =
      .next (s.cutAt s t t (betweenStores i { s.fetched n with arrival := none }) (postbytesOf i)) := by
  simp only [State.abandonedIn, hexec, loopProgress_of_no_commas hi, Option.getD_none]

/-- A reset within an instruction without commas. -/
theorem resetTaken_within_instruction {s : State} {k : Nat} {r : Request} {i : Instr} {rest : List Byte}
    (hreset : s.nextReset = none) (harr : s.arrivingReset = some (k, r)) (hrun : s.runState = .running)
    (hint : s.nextInterrupt = none) (hdecode : decode s.params.variant s.fetchBytes = .ok (i, rest))
    (hi : hasCommas i = false) :
    let v := { s.fetched (longestInstruction - rest.length) with arrival := none }
    ∃ u c t, exec i v = .next u ∧ PartWay (postbytesOf i) (betweenStores i v) s u c ∧
      step s = .next t ∧ ResetTaken r c t := by
  intro v
  obtain ⟨u, hexec, hkeeps⟩ := exec_completes i v
  have hparams : u.params = s.params := hkeeps.params.trans (keeps_fetched s _).params
  have habandoned : s.abandoned k = .next (s.cutAt s u u (betweenStores i v) (postbytesOf i)) := by
    simp only [State.abandoned, hrun, hint, hdecode]
    exact State.abandonedIn_of_no_commas hi k hexec
  obtain ⟨c, t, hpart, hstep, htaken⟩ := resetTaken_partWay hreset harr hparams habandoned
  exact ⟨u, c, t, hexec, hpart, hstep, htaken⟩

/-! ### The frame, push by push (R668) -/

theorem lastByte_eq_none {stores : List (Place × Byte)} {p : Place} (h : ∀ e ∈ stores, e.1 ≠ p) :
    lastByte stores p = none := by
  induction stores with
  | nil => rfl
  | cons e rest ih =>
    obtain ⟨hhead, hrest⟩ := List.forall_mem_cons.mp h
    simp only [lastByte, ih hrest, if_neg hhead]

/-- Stores elsewhere than to PPAGE leave the page. -/
theorem Stored.ppage_eq {stores : List (Place × Byte)} {s t : State} (h : Stored stores s t)
    (hne : ∀ e ∈ stores, e.1 ≠ .ppageReg) : t.ppage = s.ppage := by
  rw [h.ppage, lastByte_eq_none hne, Option.getD_none]

/-- A word of a frame that stays clear of PPAGE. -/
theorem State.FrameClear.word_ne_ppageReg {s : State} (h : s.FrameClear) {k : Nat} (hk : 1 ≤ k ∧ k ≤ 10)
    (v : Word) : ∀ e ∈ wordStores s (s.sp - BitVec.ofNat 16 k) v, e.1 ≠ .ppageReg := by
  have hsecond : s.sp - BitVec.ofNat 16 k + 1 = s.sp - BitVec.ofNat 16 (k - 1) := by
    obtain ⟨j, rfl⟩ := Nat.exists_eq_add_of_le hk.1
    rw [Nat.add_sub_cancel_left, BitVec.ofNat_add]
    bv_omega
  simp only [wordStores, hsecond, List.forall_mem_cons, List.not_mem_nil, false_imp_iff, implies_true, and_true]
  exact ⟨h k hk.2, h (k - 1) (by omega)⟩

/-- The state after the first `n` words of a frame are pushed, all of them elsewhere than to PPAGE. -/
structure FramePart (n : Nat) (stores : List (Place × Byte)) (s t : State) : Prop where
  pushes : Pushes (BitVec.ofNat 16 (2 * n)) stores s t
  inv : t.Inv
  ppage : t.ppage = s.ppage

theorem framePart_zero {s : State} (h : s.Inv) : FramePart 0 [] s s where
  pushes :=
    { sp := (BitVec.sub_zero s.sp).symm
      stored := ⟨fun _ => rfl, fun _ => rfl, rfl, rfl, rfl, fun _ _ _ => rfl⟩
      rest := Unchanged.refl _ s }
  inv := h
  ppage := rfl

/-- One more word pushed goes below the words before it. -/
theorem FramePart.push16 {n : Nat} {stores : List (Place × Byte)} {s t : State} (h : FramePart n stores s t)
    (hclear : s.FrameClear) (hn : n < 5) (v : Word) :
    FramePart (n + 1) (stores ++ wordStores s (s.sp - BitVec.ofNat 16 (2 * (n + 1))) v) s (t.push16 v) := by
  have hpush : Pushes 2 (wordStores t (t.sp - 2) v) t (t.push16 v) := push16_pushes h.inv.mem h.inv.gmem v
  have hparams : t.params = s.params := h.pushes.rest .params (by simp)
  have hsp : t.sp - 2 = s.sp - BitVec.ofNat 16 (2 * (n + 1)) := by
    rw [h.pushes.sp, Nat.mul_add, BitVec.ofNat_add]
    bv_omega
  have hstores : wordStores t (t.sp - 2) v = wordStores s (s.sp - BitVec.ofNat 16 (2 * (n + 1))) v := by
    simp only [wordStores, hsp, State.place_congr hparams h.ppage]
  rw [hstores] at hpush
  refine ⟨⟨?_, ?_, h.pushes.rest.trans hpush.rest⟩, State.push16_inv h.inv v, ?_⟩
  · rw [State.push16_sp, hsp]
  · exact h.pushes.stored.append hpush.stored hparams (h.pushes.rest .fresh (by simp))
  · exact (hpush.stored.ppage_eq (hclear.word_ne_ppageReg ⟨by omega, by omega⟩ v)).trans h.ppage

/-- After each of the first four pushes of a frame a first part of its stores is made, in program order (R92). -/
theorem pushStages_stored {s m : State} (hinv : s.Inv) (hclear : s.FrameClear) (rtn : Word) {n : Nat}
    (h : (pushStages s rtn)[n]? = some m) : Stored ((frameStores s rtn).take (2 * (n + 1))) s m := by
  have h1 := (framePart_zero hinv).push16 hclear (by omega) rtn
  have h2 := h1.push16 hclear (by omega) s.y
  have h3 := h2.push16 hclear (by omega) s.x
  have h4 := h3.push16 hclear (by omega) (wordOf s.b s.a)
  match n, h with
  | 0, rfl => exact h1.pushes.stored
  | 1, rfl => exact h2.pushes.stored
  | 2, rfl => exact h3.pushes.stored
  | 3, rfl => exact h4.pushes.stored
  | _ + 4, h => cases h

/-- Settles O13: the reset sequence is taken from the state that the run state's clause of `abandoned` names. -/
theorem resetIsTaken : Obligations.ResetIsTaken := by
  refine fun s r => ⟨fun hreset => ⟨_, by simp only [step, hreset], s.takeReset_taken r⟩,
    fun k hreset harr hinv => ⟨fun hrun hint i rest => ?_, fun hrun q hint => ?_, fun hrun => ?_, fun hrun => ?_,
      fun hrun => ?_, fun hclear rtn n m => pushStages_stored hinv hclear rtn⟩⟩
  · exact resetTaken_within_instruction hreset harr hrun hint
  · exact resetTaken_partWay hreset harr (keepsUnless_interrupt s q).params
      (by simp only [State.abandoned, hrun, hint])
  · exact resetTaken_partWay hreset harr (keepsUnless_waitingStep s).params (by simp only [State.abandoned, hrun])
  · exact resetTaken_partWay hreset harr (keepsUnless_stoppedStep s).params (by simp only [State.abandoned, hrun])
  · obtain ⟨t, hstep, htaken⟩ := step_of_abandoned (c := s) hreset harr (by simp only [State.abandoned, hrun])
    exact ⟨t, hstep, { htaken with }⟩

end Sys2Proof.Machine

/-! PROOFS. The memory family: the moves (R260, R261). -/

namespace Sys2Proof.Machine

/-- Settles O33: the source is evaluated, then the destination's address, and the byte or word is stored there. -/
theorem movesCopyMemory : Obligations.MovesCopyMemory := by
  intro s hinv
  refine ⟨fun src dst => ⟨_, rfl, ?_⟩, fun src dst => ⟨_, rfl, ?_⟩⟩
  · have hready := ((keeps_src8After src s).trans (keeps_eaAfter dst _)).inv hinv
    exact givesByte_plain hready.mem hready.gmem
  · have hready := ((keeps_src16After src s).trans (keeps_eaAfter dst _)).inv hinv
    exact givesWord_plain hready.mem hready.gmem

end Sys2Proof.Machine

/-! PROOFS. The memory family: the loop of REV and REVW, and what it leaves unchanged (R560, R563, R564). -/

namespace Sys2Proof.Machine

/-! ### The two rule instructions as one loop -/

/-- REV has a list of bytes, REVW a list of words. -/
inductive RuleForm where
  | bytes | words

/-- What a list element stands for: a fuzzy input or output at an address, or one of the two marks (R563, R564). -/
inductive RuleElement where
  | fuzzy (addr : Word)
  | separator
  | stop

/-- An element of REV is an offset from Y (R563). -/
def byteElement (y : Word) (e : Byte) : RuleElement :=
  if e = 0xFF#8 then .stop else if e = 0xFE#8 then .separator else .fuzzy (y + zext8 e)

/-- An element of REVW is an address (R564). -/
def wordElement (e : Word) : RuleElement :=
  if e = 0xFFFF#16 then .stop else if e = 0xFFFE#16 then .separator else .fuzzy e

/-- The bytes of an element. -/
def RuleForm.size : RuleForm → Nat
  | .bytes => 1
  | .words => 2

/-- The element at X. -/
def RuleForm.element : RuleForm → State → RuleElement
  | .bytes, s => byteElement s.y (s.read8 s.x)
  | .words, s => wordElement (s.read16 s.x)

/-- The side effect of reading it. -/
def RuleForm.touched : RuleForm → State → State
  | .bytes, s => s.touched8 s.x
  | .words, s => s.touched16 s.x

/-- The state with the element read and X behind it. -/
def RuleForm.taken (k : RuleForm) (s : State) : State :=
  { k.touched s with x := s.x + BitVec.ofNat 16 k.size, fresh := s.fresh + 1 }

/-- What the end of a rule's inputs does to their minimum: REVW can weight it (R564). -/
def RuleForm.weigh : RuleForm → State → State
  | .bytes, s => s
  | .words, s => weightRule s

/-- One pass of the loop, by what the element stands for and by the phase V. -/
def RuleForm.pass (k : RuleForm) (s : State) : State × Bool :=
  match k.element s with
  | .stop => (k.taken s, true)
  | .separator =>
    (if s.flag .v then ((k.taken s).set8 .a 0xFF#8).turnPhase else (k.weigh (k.taken s)).turnPhase, false)
  | .fuzzy addr => (if s.flag .v then ruleOutput addr (k.taken s) else ruleInput addr (k.taken s), false)

theorem revPass_eq : revPass = RuleForm.bytes.pass := by
  funext s
  simp only [revPass, RuleForm.pass, RuleForm.element, byteElement]
  by_cases hstop : s.read8 s.x = 0xFF#8
  · simp only [hstop, if_true]
    rfl
  · by_cases hsep : s.read8 s.x = 0xFE#8
    · simp only [hsep, if_true]
      rfl
    · simp only [hstop, hsep, if_false]
      cases s.flag .v <;> rfl

theorem revwPass_eq : revwPass = RuleForm.words.pass := by
  funext s
  simp only [revwPass, RuleForm.pass, RuleForm.element, wordElement]
  by_cases hstop : s.read16 s.x = 0xFFFF#16
  · simp only [hstop, if_true]
    rfl
  · by_cases hsep : s.read16 s.x = 0xFFFE#16
    · simp only [hsep, if_true]
      rfl
    · simp only [hstop, hsep, if_false]
      cases s.flag .v <;> rfl

theorem RuleForm.pass_of_stop {k : RuleForm} {s : State} (he : k.element s = .stop) :
    k.pass s = (k.taken s, true) := by
  rw [RuleForm.pass, he]

theorem RuleForm.pass_of_separator {k : RuleForm} {s : State} (he : k.element s = .separator) :
    k.pass s =
      (if s.flag .v then ((k.taken s).set8 .a 0xFF#8).turnPhase else (k.weigh (k.taken s)).turnPhase, false) := by
  rw [RuleForm.pass, he]

theorem RuleForm.pass_of_fuzzy {k : RuleForm} {s : State} {addr : Word} (he : k.element s = .fuzzy addr) :
    k.pass s = (if s.flag .v then ruleOutput addr (k.taken s) else ruleInput addr (k.taken s), false) := by
  rw [RuleForm.pass, he]

/-! ### What each part of a pass leaves unchanged -/

theorem ruleInput_unchanged (addr : Word) (s : State) : Unchanged [.a, .devices] s (ruleInput addr s) := by
  intro p hp
  cases p with
  | a | devices => simp at hp
  | _ => simp [Part.same, ruleInput]

theorem ruleOutput_unchanged (addr : Word) (s : State) :
    Unchanged [.mem, .ppage, .gpage, .devices] s (ruleOutput addr s) := by
  intro p hp
  cases p with
  | mem | ppage | gpage | devices => simp at hp
  | _ => simp [Part.same, ruleOutput]

theorem State.turnPhase_unchanged (s : State) : Unchanged [.ccr] s s.turnPhase := by
  intro p hp
  cases p with
  | ccr => simp at hp
  | _ => rfl

theorem State.set8_a_unchanged (s : State) (v : Byte) : Unchanged [.a] s (s.set8 .a v) := by
  intro p hp
  cases p with
  | a => simp at hp
  | _ => rfl

theorem weightRule_unchanged (s : State) : Unchanged [.a, .y, .devices] s (weightRule s) := by
  intro p hp
  unfold weightRule
  split
  · cases p with
    | a | y | devices => simp at hp
    | _ => simp [Part.same]
  · exact p.same_refl s

theorem RuleForm.touched_unchanged (k : RuleForm) (s : State) : Unchanged [.devices] s (k.touched s) := by
  cases k with
  | bytes => exact s.touched8_unchanged _
  | words => exact (s.accessed_unchanged _).trans (State.accessed_unchanged _ _)

theorem RuleForm.taken_unchanged (k : RuleForm) (s : State) : Unchanged [.x, .devices, .fresh] s (k.taken s) := by
  have hadvance : Unchanged [.x, .devices, .fresh] (k.touched s) (k.taken s) := by
    intro p hp
    cases p with
    | x | devices | fresh => simp at hp
    | _ => rfl
  exact ((k.touched_unchanged s).mono (by simp)).trans hadvance

/-- The pieces of state the loop may change: REVW can move Y on over the weights. -/
def RuleForm.parts : RuleForm → List Part
  | .bytes => [.a, .x, .ccr, .mem, .ppage, .gpage, .devices, .fresh]
  | .words => [.y, .a, .x, .ccr, .mem, .ppage, .gpage, .devices, .fresh]

theorem RuleForm.weigh_unchanged (k : RuleForm) (s : State) : Unchanged k.parts s (k.weigh s) := by
  cases k with
  | bytes => exact Unchanged.refl _ s
  | words => exact (weightRule_unchanged s).mono (by simp [RuleForm.parts])

/-! ### What the loop leaves unchanged -/

/-- Nothing but the listed pieces changes, and of the condition codes nothing but V. -/
structure LoopKeeps (parts : List Part) (s t : State) : Prop where
  unchanged : Unchanged parts s t
  flags : ∀ f, f ≠ .v → t.flag f = s.flag f

theorem LoopKeeps.refl (parts : List Part) (s : State) : LoopKeeps parts s s := ⟨Unchanged.refl _ s, fun _ _ => rfl⟩

theorem LoopKeeps.trans {parts : List Part} {s t u : State} (h : LoopKeeps parts s t) (h' : LoopKeeps parts t u) :
    LoopKeeps parts s u :=
  ⟨h.unchanged.trans h'.unchanged, fun f hf => (h'.flags f hf).trans (h.flags f hf)⟩

theorem LoopKeeps.mono {few many : List Part} {s t : State} (h : LoopKeeps few s t) (hsub : few ⊆ many) :
    LoopKeeps many s t :=
  ⟨h.unchanged.mono hsub, h.flags⟩

theorem loopKeeps_of_ccr {parts : List Part} {s t : State} (h : Unchanged parts s t) (hccr : t.ccr = s.ccr) :
    LoopKeeps parts s t :=
  ⟨h, fun f _ => State.flag_eq_of_ccr hccr f⟩

/-- What REV may change REVW may change too. -/
theorem RuleForm.keeps_of_unchanged (k : RuleForm) {few : List Part} {s t : State} (h : Unchanged few s t)
    (hsub : few ⊆ RuleForm.bytes.parts) (hccr : Part.ccr ∉ few) : LoopKeeps k.parts s t := by
  refine loopKeeps_of_ccr (h.mono (List.Subset.trans hsub ?_)) (h .ccr hccr)
  cases k <;> simp [RuleForm.parts]

theorem RuleForm.turnPhase_keeps (k : RuleForm) (s : State) : LoopKeeps k.parts s s.turnPhase where
  unchanged := s.turnPhase_unchanged.mono (by cases k <;> simp [RuleForm.parts])
  flags f hf := by simp [State.turnPhase, State.flag, Ne.symm hf]

theorem RuleForm.taken_keeps (k : RuleForm) (s : State) : LoopKeeps k.parts s (k.taken s) :=
  k.keeps_of_unchanged (k.taken_unchanged s) (by simp [RuleForm.parts]) (by simp)

theorem RuleForm.weigh_ccr (k : RuleForm) (s : State) : (k.weigh s).ccr = s.ccr := by
  cases k with
  | bytes => rfl
  | words => exact weightRule_unchanged s .ccr (by simp)

/-- By what the element stands for. -/
theorem RuleForm.pass_keeps (k : RuleForm) (s : State) : LoopKeeps k.parts s (k.pass s).1 := by
  refine (k.taken_keeps s).trans ?_
  generalize ht : k.taken s = t
  cases he : k.element s with
  | stop =>
    rw [k.pass_of_stop he, ht]
    exact LoopKeeps.refl _ t
  | separator =>
    rw [k.pass_of_separator he, ht]
    dsimp only
    split
    · exact (k.keeps_of_unchanged (t.set8_a_unchanged _) (by simp [RuleForm.parts]) (by simp)).trans
        (k.turnPhase_keeps _)
    · exact (loopKeeps_of_ccr (k.weigh_unchanged t) (k.weigh_ccr t)).trans (k.turnPhase_keeps _)
  | fuzzy addr =>
    rw [k.pass_of_fuzzy he, ht]
    dsimp only
    split
    · exact k.keeps_of_unchanged (ruleOutput_unchanged addr t) (by simp [RuleForm.parts]) (by simp)
    · exact k.keeps_of_unchanged (ruleInput_unchanged addr t) (by simp [RuleForm.parts]) (by simp)

theorem RuleForm.runPasses_keeps (k : RuleForm) (n : Nat) (s : State) :
    LoopKeeps k.parts s (runPasses k.pass n s).1 := by
  induction n generalizing s with
  | zero => exact LoopKeeps.refl _ s
  | succ n ih =>
    unfold runPasses
    split
    · exact k.pass_keeps s
    · exact (k.pass_keeps s).trans (ih _)

theorem State.arrived_unchanged (s : State) : Unchanged [.pending, .arrival] s s.arrived := by
  intro p hp
  unfold State.arrived
  split
  · exact p.same_refl s
  · cases p with
    | pending | arrival => simp at hp
    | _ => rfl

theorem State.withPc_unchanged (s : State) (v : Word) : Unchanged [.pc] s { s with pc := v } := by
  intro p hp
  cases p with
  | pc => simp at hp
  | _ => rfl

/-- The loop run to its end or to a comma: PC stays `PCnext`, or goes back to the instruction (R675). -/
theorem RuleForm.evaluateRules_keeps (k : RuleForm) (s : State) :
    ((evaluateRules k.pass s).pc = s.pc ∨ (evaluateRules k.pass s).pc = s.pc - 2) ∧
      LoopKeeps (.pc :: .pending :: .arrival :: k.parts) s (evaluateRules k.pass s) := by
  have hrun : ∀ n, LoopKeeps (.pending :: .arrival :: k.parts) s (runPasses k.pass n s.arrived).1 := fun n =>
    (loopKeeps_of_ccr (s.arrived_unchanged.mono (by simp)) (s.arrived_unchanged .ccr (by simp))).trans
      ((k.runPasses_keeps n _).mono fun p hp => by simp [hp])
  simp only [evaluateRules]
  split
  · exact ⟨.inl ((hrun _).unchanged .pc (by cases k <;> simp [RuleForm.parts])),
      (hrun _).mono (List.subset_cons_self _ _)⟩
  · exact ⟨.inr rfl, ((hrun _).mono (List.subset_cons_self _ _)).trans
      (loopKeeps_of_ccr ((State.withPc_unchanged _ _).mono (by simp)) rfl)⟩

/-! ### The flags at the end -/

/-- Some flags take any value, and nothing else happens. -/
structure FlagsFreed (freed : List Flag) (s t : State) : Prop where
  unchanged : Unchanged [.ccr] s t
  flags : ∀ f, f ∉ freed → t.flag f = s.flag f

theorem State.setCcr_unchanged (s : State) (c : Byte) : Unchanged [.ccr] s (s.setCcr c) := by
  intro p hp
  cases p with
  | ccr => simp at hp
  | _ => rfl

theorem flagsFreed_havocHNZ (s : State) : FlagsFreed [.h, .n, .z] s (havocHNZ s) where
  unchanged := s.setCcr_unchanged _
  flags f hf := by
    simp only [List.mem_cons, List.not_mem_nil, or_false, not_or] at hf
    obtain ⟨hh, hn, hz⟩ := hf
    simp [havocHNZ, withNZ, State.flag, Ne.symm hh, Ne.symm hn, Ne.symm hz]

/-- H, N, Z and C of REV are free (R560). -/
theorem rev_freed (s : State) : FlagsFreed [.h, .n, .z, .c] (evaluateRules RuleForm.bytes.pass s) (rev s) := by
  have hhnz := flagsFreed_havocHNZ (evaluateRules RuleForm.bytes.pass s)
  rw [rev, revPass_eq]
  refine ⟨hhnz.unchanged.trans (State.setCcr_unchanged _ _), fun f hf => ?_⟩
  have hc : Flag.c ≠ f := by rintro rfl; simp at hf
  rw [← hhnz.flags f fun hmem => hf (by simp_all)]
  simp [State.flag, hc]

/-- H, N and Z of REVW are free (R560). -/
theorem revw_freed (s : State) : FlagsFreed [.h, .n, .z] (evaluateRules RuleForm.words.pass s) (revw s) := by
  rw [revw, revwPass_eq]
  exact flagsFreed_havocHNZ _

/-- What the loop and then the end of a rule instruction leave. -/
theorem LoopKeeps.flagsFreed {parts : List Part} {freed kept : List Flag} {s t u : State} (h : LoopKeeps parts s t)
    (h' : FlagsFreed freed t u) (hccr : Part.ccr ∈ parts) (hkept : ∀ f ∈ kept, f ∉ .v :: freed) :
    FlagsKept kept s u ∧ Unchanged parts s u := by
  refine ⟨fun f hf => ?_, h.unchanged.trans (h'.unchanged.mono (by simpa using hccr))⟩
  obtain ⟨hv, hfree⟩ := not_or.mp (List.mem_cons.not.mp (hkept f hf))
  exact (h'.flags f hfree).trans (h.flags f hv)

end Sys2Proof.Machine

/-! PROOFS. The memory family: one rule of REV or REVW in plain memory (R563, R564). -/

namespace Sys2Proof.Machine

/-! ### Plain memory -/

section Flat

variable {s t : State}

theorem State.Flat.congr (h : s.Flat) (hp : t.params = s.params) (hpage : t.ppage = s.ppage) : t.Flat :=
  fun addr => (State.place_congr hp hpage addr).trans (h addr)

/-- A change of other pieces leaves plain memory. -/
theorem State.Flat.of_unchanged {parts : List Part} (h : s.Flat) (hu : Unchanged parts s t)
    (hparts : Part.params ∉ parts ∧ Part.ppage ∉ parts) : t.Flat :=
  h.congr (hu .params hparts.1) (hu .ppage hparts.2)

theorem State.Flat.read8_eq (h : s.Flat) (addr : Word) : s.read8 addr = memGet s.mem addr.toNat := by
  rw [State.read8, h addr, State.getPlace]

theorem State.Flat.read8_congr (h : s.Flat) (h' : t.Flat) (hm : t.mem = s.mem) (addr : Word) :
    t.read8 addr = s.read8 addr := by
  rw [h.read8_eq, h'.read8_eq, hm]

theorem State.Flat.place_ne_device (h : s.Flat) (addr : Word) (reg : Nat) : s.place addr ≠ .device reg := by
  simp [h addr]

theorem State.Flat.touched8_eq (h : s.Flat) (addr : Word) : s.touched8 addr = s :=
  State.touched8_eq (h.place_ne_device addr)

theorem State.Flat.touched16_eq (h : s.Flat) (addr : Word) : s.touched16 addr = s :=
  State.touched16_eq (h.place_ne_device addr) (h.place_ne_device (addr + 1))

theorem State.Flat.write8_eq (h : s.Flat) (addr : Word) (v : Byte) :
    s.write8 addr v = { s with mem := memSet s.mem addr.toNat v } := by
  rw [State.write8, h addr, State.putPlace]

/-- A byte stored in plain memory is read back at its address, and every other byte is as before. -/
theorem State.Flat.read8_write8 (h : s.Flat) (hwf : memWf s.mem = true) (addr other : Word) (v : Byte) :
    (s.write8 addr v).read8 other = if other = addr then v else s.read8 other := by
  by_cases heq : other = addr
  · rw [if_pos heq, heq, State.read8_write8_same hwf v (h addr)]
  · have hne : other.toNat ≠ addr.toNat := fun hn => heq (BitVec.eq_of_toNat_eq hn)
    rw [if_neg heq, State.read8, State.write8, State.place_putPlace v (by simp [h addr]),
      State.getPlace_putPlace_other (by simp [h addr, h other, Place.overlaps, hne]), State.read8]

end Flat

/-! ### Elements of a list -/

/-- What the elements of REV are offsets from. -/
def RuleForm.base : RuleForm → State → Word
  | .bytes, s => s.y
  | .words, _ => 0

theorem RuleForm.base_congr (k : RuleForm) {s t : State} (hy : t.y = s.y) : k.base t = k.base s := by
  cases k with
  | bytes => exact hy
  | words => rfl

/-- From X on lies the list of these elements. -/
def RuleForm.Lists (k : RuleForm) (s : State) (elements : List RuleElement) : Prop :=
  ∀ n, (h : n < elements.length) → k.element { s with x := s.x + BitVec.ofNat 16 (k.size * n) } = elements[n]

theorem lists_of_holds {s : State} {bytes : List Byte} (h : s.Holds s.x bytes) :
    RuleForm.bytes.Lists s (bytes.map (byteElement s.y)) := by
  intro n hn
  have hread := h n (by simpa using hn)
  rw [List.getElem_map, ← hread, RuleForm.size, Nat.one_mul]
  rfl

theorem lists_of_holdsWords {s : State} {words : List Word} (h : s.HoldsWords s.x words) :
    RuleForm.words.Lists s (words.map wordElement) := by
  intro n hn
  have hread := h n (by simpa using hn)
  rw [List.getElem_map, ← hread]
  rfl

/-- The element at X is a matter of X, of what it is an offset from, and of its own bytes. -/
theorem RuleForm.element_congr (k : RuleForm) {s t : State} (hx : t.x = s.x) (hbase : k.base t = k.base s)
    (hread : ∀ i < k.size, t.read8 (s.x + BitVec.ofNat 16 i) = s.read8 (s.x + BitVec.ofNat 16 i)) :
    k.element t = k.element s := by
  have hfirst := hread 0
  rw [BitVec.add_zero] at hfirst
  cases k with
  | bytes =>
    have hy : t.y = s.y := hbase
    rw [RuleForm.element, RuleForm.element, hx, hy, hfirst (by simp [RuleForm.size])]
  | words =>
    have hsecond : t.read8 (s.x + 1) = s.read8 (s.x + 1) := hread 1 (by simp [RuleForm.size])
    rw [RuleForm.element, RuleForm.element, State.read16, State.read16, hx, hfirst (by simp [RuleForm.size]),
      hsecond]

theorem RuleForm.Lists.head {k : RuleForm} {s : State} {e : RuleElement} {rest : List RuleElement}
    (h : k.Lists s (e :: rest)) : k.element s = e := by
  have hfirst := h 0 (by simp)
  rwa [Nat.mul_zero, BitVec.add_zero] at hfirst

theorem add_ofNat_add (x : Word) (m n : Nat) :
    x + BitVec.ofNat 16 m + BitVec.ofNat 16 n = x + BitVec.ofNat 16 (m + n) := by
  rw [BitVec.add_assoc, ← BitVec.ofNat_add]

/-- Behind the first element lies the rest of the list, as long as its bytes stay. -/
theorem RuleForm.Lists.tail {k : RuleForm} {s t : State} {e : RuleElement} {rest : List RuleElement}
    (h : k.Lists s (e :: rest)) (hx : t.x = s.x + BitVec.ofNat 16 k.size) (hbase : k.base t = k.base s)
    (hread : ∀ i < k.size * rest.length,
      t.read8 (t.x + BitVec.ofNat 16 i) = s.read8 (t.x + BitVec.ofNat 16 i)) : k.Lists t rest := by
  intro n hn
  have hnext := h (n + 1) (by simpa using hn)
  rw [List.getElem_cons_succ] at hnext
  have hplace : t.x + BitVec.ofNat 16 (k.size * n) = s.x + BitVec.ofNat 16 (k.size * (n + 1)) := by
    rw [hx, add_ofNat_add, Nat.mul_add, Nat.mul_one, Nat.add_comm]
  rw [← hnext]
  refine k.element_congr hplace ?_ fun i hi => ?_
  · cases k <;> exact hbase
  · have hbound : k.size * n + i < k.size * rest.length :=
      calc k.size * n + i < k.size * (n + 1) := by rw [Nat.mul_add, Nat.mul_one]; omega
        _ ≤ k.size * rest.length := Nat.mul_le_mul_left _ hn
    have hbyte := hread (k.size * n + i) hbound
    rwa [← add_ofNat_add, hplace] at hbyte

/-! ### Passes before the end -/

/-- The loop comes from `s` to `t` in `n` passes, none of which is its end. -/
def Passes (pass : State → State × Bool) (n : Nat) (s t : State) : Prop :=
  ∀ m, runPasses pass (n + m) s = runPasses pass m t

theorem passes_zero (pass : State → State × Bool) (s : State) : Passes pass 0 s s := fun m => by rw [Nat.zero_add]

theorem passes_one {pass : State → State × Bool} {s t : State} (h : pass s = (t, false)) : Passes pass 1 s t := by
  intro m
  rw [Nat.add_comm, runPasses, h]
  rfl

theorem Passes.trans {pass : State → State × Bool} {m n : Nat} {s t u : State} (h : Passes pass m s t)
    (h' : Passes pass n t u) : Passes pass (m + n) s u := by
  intro r
  rw [Nat.add_assoc, h, h']

theorem runPasses_of_stop {pass : State → State × Bool} {s t : State} (h : pass s = (t, true)) (n : Nat) :
    runPasses pass (n + 1) s = (t, true) := by
  rw [runPasses, h]
  rfl

theorem RuleForm.taken_eq (k : RuleForm) {s : State} (h : s.Flat) :
    k.taken s = { s with x := s.x + BitVec.ofNat 16 k.size, fresh := s.fresh + 1 } := by
  cases k with
  | bytes => rw [RuleForm.taken, RuleForm.touched, h.touched8_eq]
  | words => rw [RuleForm.taken, RuleForm.touched, h.touched16_eq]

/-- In plain memory the reading of an element moves X. -/
theorem RuleForm.taken_unchanged_of_flat (k : RuleForm) {s : State} (h : s.Flat) :
    Unchanged [.x, .fresh] s (k.taken s) := by
  rw [k.taken_eq h]
  intro p hp
  cases p with
  | x | fresh => simp at hp
  | _ => rfl

/-! ### The inputs -/

theorem min8_toNat (p q : Byte) : (min8 p q).toNat = min p.toNat q.toNat := by
  unfold min8
  split <;> omega

theorem max8_toNat (p q : Byte) : (max8 p q).toNat = max p.toNat q.toNat := by
  unfold max8
  split <;> omega

/-- The inputs at these addresses are taken into the minimum. -/
structure InputsTaken (k : RuleForm) (addrs : List Word) (s t : State) : Prop where
  a : t.a.toNat = s.leastOf s.a addrs
  x : t.x = s.x + BitVec.ofNat 16 (k.size * addrs.length)
  rest : Unchanged [.a, .x, .fresh] s t

theorem InputsTaken.flat {k : RuleForm} {addrs : List Word} {s t : State} (h : InputsTaken k addrs s t)
    (hflat : s.Flat) : t.Flat :=
  hflat.of_unchanged h.rest (by simp)

theorem InputsTaken.read8 {k : RuleForm} {addrs : List Word} {s t : State} (h : InputsTaken k addrs s t)
    (hflat : s.Flat) (addr : Word) : t.read8 addr = s.read8 addr :=
  hflat.read8_congr (h.flat hflat) (h.rest .mem (by simp)) addr

theorem InputsTaken.append {k : RuleForm} {xs ys : List Word} {s t u : State} (h : InputsTaken k xs s t)
    (h' : InputsTaken k ys t u) (hflat : s.Flat) : InputsTaken k (xs ++ ys) s u where
  a := by
    rw [h'.a, State.leastOf, State.leastOf, List.foldl_append, h.a, State.leastOf]
    simp only [h.read8 hflat]
  x := by rw [h'.x, h.x, add_ofNat_add, List.length_append, Nat.mul_add]
  rest := h.rest.trans h'.rest

theorem RuleForm.pass_of_input (k : RuleForm) {s : State} {addr : Word} (hv : s.flag .v = false)
    (he : k.element s = .fuzzy addr) : k.pass s = (ruleInput addr (k.taken s), false) := by
  simp only [k.pass_of_fuzzy he, hv, Bool.false_eq_true, if_false]

theorem RuleForm.input_taken (k : RuleForm) {s : State} (addr : Word) (hflat : s.Flat) :
    InputsTaken k [addr] s (ruleInput addr (k.taken s)) := by
  have htaken := k.taken_unchanged_of_flat hflat
  have hflat' : (k.taken s).Flat := hflat.of_unchanged htaken (by simp)
  have hread := hflat.read8_congr hflat' (htaken .mem (by simp)) addr
  have ha : (k.taken s).a = s.a := htaken .a (by simp)
  rw [ruleInput, hflat'.touched8_eq, hread, ha]
  refine ⟨min8_toNat _ _, ?_, (htaken.mono (by simp)).trans ((State.set8_a_unchanged _ _).mono (by simp))⟩
  rw [List.length_singleton, Nat.mul_one]
  rfl

theorem RuleForm.inputs_run (k : RuleForm) {rest : List RuleElement} {addrs : List Word} {s : State} (hflat : s.Flat)
    (hv : s.flag .v = false) (hlist : k.Lists s (addrs.map .fuzzy ++ rest)) :
    ∃ t, Passes k.pass addrs.length s t ∧ InputsTaken k addrs s t ∧ k.Lists t rest := by
  induction addrs generalizing s with
  | nil => exact ⟨s, passes_zero _ s, ⟨rfl, (BitVec.add_zero _).symm, Unchanged.refl _ s⟩, hlist⟩
  | cons addr addrs ih =>
    rw [List.map_cons, List.cons_append] at hlist
    have hfirst := k.input_taken addr hflat
    have hstep := passes_one (k.pass_of_input hv hlist.head)
    generalize ruleInput addr (k.taken s) = u at hfirst hstep
    have hv' : u.flag .v = false := (State.flag_eq_of_ccr (hfirst.rest .ccr (by simp)) .v).trans hv
    have htail : k.Lists u (addrs.map .fuzzy ++ rest) :=
      hlist.tail (by simpa using hfirst.x) (k.base_congr (hfirst.rest .y (by simp))) fun i _ =>
        hfirst.read8 hflat _
    obtain ⟨t, hrun, htaken, hrest⟩ := ih (hfirst.flat hflat) hv' htail
    refine ⟨t, ?_, hfirst.append htaken hflat, hrest⟩
    rw [List.length_cons, Nat.add_comm]
    exact hstep.trans hrun

/-! ### The separator -/

theorem RuleForm.pass_of_separator_after_inputs (k : RuleForm) {s : State} (hv : s.flag .v = false)
    (he : k.element s = .separator) : k.pass s = ((k.weigh (k.taken s)).turnPhase, false) := by
  simp only [k.pass_of_separator he, hv, Bool.false_eq_true, if_false]

/-- In plain memory the weighting changes A and moves Y on, at most. -/
theorem RuleForm.weigh_unchanged_of_flat (k : RuleForm) {s : State} (h : s.Flat) :
    Unchanged [.a, .y] s (k.weigh s) := by
  cases k with
  | bytes => exact Unchanged.refl _ s
  | words =>
    intro p hp
    simp only [RuleForm.weigh, weightRule, h.touched8_eq]
    split
    · cases p with
      | a | y => simp at hp
      | _ => rfl
    · exact p.same_refl s

theorem State.flag_v_turnPhase (s : State) : s.turnPhase.flag .v = !s.flag .v := by
  simp [State.turnPhase]

/-! ### The outputs -/

/-- The outputs at these addresses are raised to A. -/
structure OutputsRaised (k : RuleForm) (addrs : List Word) (s t : State) : Prop where
  x : t.x = s.x + BitVec.ofNat 16 (k.size * addrs.length)
  rest : Unchanged [.x, .mem, .fresh] s t
  wf : memWf t.mem = true
  read : ∀ addr, (t.read8 addr).toNat =
    if addr ∈ addrs then max s.a.toNat (s.read8 addr).toNat else (s.read8 addr).toNat

theorem OutputsRaised.flat {k : RuleForm} {addrs : List Word} {s t : State} (h : OutputsRaised k addrs s t)
    (hflat : s.Flat) : t.Flat :=
  hflat.of_unchanged h.rest (by simp)

theorem OutputsRaised.read8_of_not_mem {k : RuleForm} {addrs : List Word} {s t : State}
    (h : OutputsRaised k addrs s t) {addr : Word} (hne : addr ∉ addrs) : t.read8 addr = s.read8 addr :=
  BitVec.eq_of_toNat_eq ((h.read addr).trans (if_neg hne))

theorem OutputsRaised.append {k : RuleForm} {xs ys : List Word} {s t u : State} (h : OutputsRaised k xs s t)
    (h' : OutputsRaised k ys t u) : OutputsRaised k (xs ++ ys) s u where
  x := by rw [h'.x, h.x, add_ofNat_add, List.length_append, Nat.mul_add]
  rest := h.rest.trans h'.rest
  wf := h'.wf
  read addr := by
    have ha : t.a = s.a := h.rest .a (by simp)
    rw [h'.read, h.read, ha]
    by_cases hx : addr ∈ xs <;> by_cases hy : addr ∈ ys <;> simp [hx, hy]

theorem RuleForm.pass_of_output (k : RuleForm) {s : State} {addr : Word} (hv : s.flag .v = true)
    (he : k.element s = .fuzzy addr) : k.pass s = (ruleOutput addr (k.taken s), false) := by
  simp only [k.pass_of_fuzzy he, hv, if_true]

theorem RuleForm.output_raised (k : RuleForm) {s : State} (addr : Word) (hflat : s.Flat)
    (hwf : memWf s.mem = true) : OutputsRaised k [addr] s (ruleOutput addr (k.taken s)) := by
  have htaken := k.taken_unchanged_of_flat hflat
  have hflat' : (k.taken s).Flat := hflat.of_unchanged htaken (by simp)
  have hmem : (k.taken s).mem = s.mem := htaken .mem (by simp)
  have hread := hflat.read8_congr hflat' hmem
  have ha : (k.taken s).a = s.a := htaken .a (by simp)
  rw [ruleOutput, hflat'.touched8_eq, hread, ha]
  refine ⟨?_, ?_, ?_, fun other => ?_⟩
  · rw [List.length_singleton, Nat.mul_one, State.write8_x]
    rfl
  · refine (htaken.mono (by simp)).trans ?_
    rw [hflat'.write8_eq]
    intro p hp
    cases p with
    | x | mem | fresh => simp at hp
    | _ => rfl
  · rw [hflat'.write8_eq]
    exact memSet_wf _ _ (hmem ▸ hwf)
  · rw [hflat'.read8_write8 (hmem ▸ hwf), hread]
    by_cases heq : other = addr
    · simp [heq, max8_toNat]
    · simp [heq]

/-- The outputs are written one after the other, as long as none of them lies in what is left of the list. -/
theorem RuleForm.outputs_run (k : RuleForm) {rest : List RuleElement} {addrs : List Word} {s : State}
    (hflat : s.Flat) (hwf : memWf s.mem = true) (hv : s.flag .v = true)
    (hlist : k.Lists s (addrs.map .fuzzy ++ rest))
    (hfar : ∀ o ∈ addrs, ∀ i < k.size * (addrs.length + rest.length), s.x + BitVec.ofNat 16 i ≠ o) :
    ∃ t, Passes k.pass addrs.length s t ∧ OutputsRaised k addrs s t ∧ k.Lists t rest := by
  induction addrs generalizing s with
  | nil =>
    exact ⟨s, passes_zero _ s, ⟨(BitVec.add_zero _).symm, Unchanged.refl _ s, hwf, fun _ => by simp⟩, hlist⟩
  | cons addr addrs ih =>
    rw [List.map_cons, List.cons_append] at hlist
    have hfirst := k.output_raised addr hflat hwf
    have hstep := passes_one (k.pass_of_output hv hlist.head)
    generalize ruleOutput addr (k.taken s) = u at hfirst hstep
    have hx : u.x = s.x + BitVec.ofNat 16 k.size := by simpa using hfirst.x
    have hv' : u.flag .v = true := (State.flag_eq_of_ccr (hfirst.rest .ccr (by simp)) .v).trans hv
    have hbehind : ∀ o ∈ addr :: addrs, ∀ i < k.size * (addrs.length + rest.length),
        u.x + BitVec.ofNat 16 i ≠ o := by
      intro o ho i hi
      rw [hx, add_ofNat_add]
      refine hfar o ho _ ?_
      rw [List.length_cons, Nat.add_right_comm, Nat.mul_add, Nat.mul_one]
      omega
    have htail : k.Lists u (addrs.map .fuzzy ++ rest) := by
      refine hlist.tail hx (k.base_congr (hfirst.rest .y (by simp))) fun i hi => ?_
      rw [List.length_append, List.length_map] at hi
      exact hfirst.read8_of_not_mem (by simpa using hbehind addr List.mem_cons_self i hi)
    obtain ⟨t, hrun, hraised, hrest⟩ :=
      ih (hfirst.flat hflat) hfirst.wf hv' htail fun o ho => hbehind o (List.mem_cons_of_mem _ ho)
    refine ⟨t, ?_, hfirst.append hraised, hrest⟩
    rw [List.length_cons, Nat.add_comm]
    exact hstep.trans hrun

/-! ### One rule -/

/-- The list of one rule: inputs, the separator, outputs, the end mark. -/
def ruleList (ins outs : List Word) : List RuleElement :=
  ins.map .fuzzy ++ .separator :: (outs.map .fuzzy ++ [.stop])

/-- What one rule does from `s` to `t`: `m` is the state at the end of its inputs, before the weighting. -/
structure RuleRun (k : RuleForm) (ins outs : List Word) (s m t : State) : Prop where
  least : m.a.toNat = s.leastOf s.a ins
  inputs : Unchanged [.a, .x, .fresh] s m
  a : t.a = (k.weigh m).a
  y : t.y = (k.weigh m).y
  x : t.x = s.x + BitVec.ofNat 16 (k.size * (ins.length + outs.length + 2))
  pc : t.pc = s.pc
  phase : t.flag .v = true
  read : ∀ addr, (t.read8 addr).toNat =
    if addr ∈ outs then max (k.weigh m).a.toNat (s.read8 addr).toNat else (s.read8 addr).toNat

/-- The separator is passed: the phase is turned and the minimum is weighted. -/
structure SeparatorPassed (k : RuleForm) (s t : State) : Prop where
  x : t.x = s.x + BitVec.ofNat 16 k.size
  phase : t.flag .v = true
  weighed : Unchanged [.ccr] (k.weigh (k.taken s)) t
  rest : Unchanged [.a, .x, .y, .ccr, .fresh] s t

theorem RuleForm.separator_passed (k : RuleForm) {s : State} (hflat : s.Flat) (hv : s.flag .v = false) :
    SeparatorPassed k s (k.weigh (k.taken s)).turnPhase := by
  have htaken := k.taken_unchanged_of_flat hflat
  have hweigh := k.weigh_unchanged_of_flat (hflat.of_unchanged htaken (by simp))
  have hturn := (k.weigh (k.taken s)).turnPhase_unchanged
  have hv' : (k.weigh (k.taken s)).flag .v = false :=
    (State.flag_eq_of_ccr ((k.weigh_ccr _).trans (htaken .ccr (by simp))) .v).trans hv
  refine ⟨hweigh .x (by simp), ?_, hturn, ((htaken.mono (by simp)).trans (hweigh.mono (by simp))).trans
    (hturn.mono (by simp))⟩
  rw [State.flag_v_turnPhase, hv', Bool.not_false]

theorem SeparatorPassed.base {k : RuleForm} {s t : State} (h : SeparatorPassed k s t) : k.base t = k.base s := by
  cases k with
  | bytes => exact (h.weighed .y (by simp)).trans (RuleForm.bytes.taken_unchanged s .y (by simp))
  | words => rfl

/-- Behind the separator lie the outputs. -/
theorem RuleForm.separator_run (k : RuleForm) {s : State} {rest : List RuleElement} (hflat : s.Flat)
    (hv : s.flag .v = false) (hlist : k.Lists s (.separator :: rest)) :
    ∃ t, Passes k.pass 1 s t ∧ SeparatorPassed k s t ∧ k.Lists t rest := by
  have hpassed := k.separator_passed hflat hv
  refine ⟨_, passes_one (k.pass_of_separator_after_inputs hv hlist.head), hpassed,
    hlist.tail hpassed.x hpassed.base fun i _ => ?_⟩
  exact hflat.read8_congr (hflat.of_unchanged hpassed.rest (by simp)) (hpassed.rest .mem (by simp)) _

/-- The loop over one rule: inputs, separator, outputs, end. -/
theorem RuleForm.one_rule_run (k : RuleForm) {s : State} {ins outs : List Word} (hflat : s.Flat)
    (hwf : memWf s.mem = true) (hv : s.flag .v = false) (hlist : k.Lists s (ruleList ins outs))
    (hfar : ∀ o ∈ outs, ∀ i < k.size * (ins.length + outs.length + 2), s.x + BitVec.ofNat 16 i ≠ o) :
    ∃ m t, RuleRun k ins outs s m t ∧
      ∀ n, runPasses k.pass (ins.length + 1 + outs.length + (n + 1)) s = (t, true) := by
  obtain ⟨u, hrunIn, hin, hlist⟩ := k.inputs_run hflat hv hlist
  have hflatu := hin.flat hflat
  have hvu : u.flag .v = false := (State.flag_eq_of_ccr (hin.rest .ccr (by simp)) .v).trans hv
  have htaken := k.taken_unchanged_of_flat hflatu
  obtain ⟨w, hrunSep, hsep, hlist⟩ := k.separator_run hflatu hvu hlist
  have hflatw := hflatu.of_unchanged hsep.rest (by simp)
  have hxw : w.x = s.x + BitVec.ofNat 16 (k.size * (ins.length + 1)) := by
    rw [hsep.x, hin.x, add_ofNat_add, Nat.mul_add, Nat.mul_one]
  have hmem : w.mem = s.mem := (hsep.rest .mem (by simp)).trans (hin.rest .mem (by simp))
  obtain ⟨v, hrunOut, hout, hlist⟩ := k.outputs_run hflatw (hmem ▸ hwf) hsep.phase hlist fun o ho i hi => by
    have hsize : k.size * (ins.length + outs.length + 2) =
        k.size * (ins.length + 1) + k.size * (outs.length + 1) := by ring
    rw [hxw, add_ofNat_add]
    exact hfar o ho _ (by simpa [hsize] using hi)
  have hflatv := hout.flat hflatw
  have hend := k.taken_unchanged_of_flat hflatv
  refine ⟨k.taken u, k.taken v, ⟨?_, ?_, ?_, ?_, ?_, ?_, ?_, fun addr => ?_⟩, fun n => ?_⟩
  · exact (congrArg BitVec.toNat (htaken .a (by simp))).trans hin.a
  · exact hin.rest.trans (htaken.mono (by simp))
  · exact ((hend .a (by simp)).trans (hout.rest .a (by simp))).trans (hsep.weighed .a (by simp))
  · exact ((hend .y (by simp)).trans (hout.rest .y (by simp))).trans (hsep.weighed .y (by simp))
  · have hx : (k.taken v).x = v.x + BitVec.ofNat 16 k.size := rfl
    rw [hx, hout.x, hxw, add_ofNat_add, add_ofNat_add]
    congr 2
    ring
  · exact ((hend .pc (by simp)).trans (hout.rest .pc (by simp))).trans
      ((hsep.rest .pc (by simp)).trans (hin.rest .pc (by simp)))
  · exact (State.flag_eq_of_ccr ((hend .ccr (by simp)).trans (hout.rest .ccr (by simp))) .v).trans hsep.phase
  · have ha : w.a = (k.weigh (k.taken u)).a := hsep.weighed .a (by simp)
    rw [hflatv.read8_congr (hflatv.of_unchanged hend (by simp)) (hend .mem (by simp)), hout.read, ha,
      hflat.read8_congr hflatw hmem]
  · rw [(hrunIn.trans hrunSep).trans hrunOut, runPasses_of_stop (k.pass_of_stop hlist.head)]

/-- Without an arriving request the loop has all the passes of one step. -/
theorem evaluateRules_of_runPasses {pass : State → State × Bool} {s t : State} (harr : s.arrival = none)
    (h : runPasses pass passLimit s = (t, true)) : evaluateRules pass s = t := by
  simp only [evaluateRules, State.passesToArrival, State.arrived, harr, Option.getD_none, Nat.min_self, h, if_true]

theorem RuleForm.evaluateRules_one_rule (k : RuleForm) {s : State} {ins outs : List Word} (hinv : s.Inv)
    (hflat : s.Flat) (harr : s.arrival = none) (hv : s.flag .v = false) (hlen : ins.length + outs.length ≤ 1000)
    (hlist : k.Lists s (ruleList ins outs))
    (hfar : ∀ o ∈ outs, ∀ i < k.size * (ins.length + outs.length + 2), s.x + BitVec.ofNat 16 i ≠ o) :
    ∃ m, RuleRun k ins outs s m (evaluateRules k.pass s) := by
  obtain ⟨m, t, hrun, hpasses⟩ := k.one_rule_run hflat hinv.mem hv hlist hfar
  obtain ⟨n, hn⟩ : ∃ n, passLimit = ins.length + 1 + outs.length + (n + 1) :=
    ⟨1022 - (ins.length + outs.length), by unfold passLimit; omega⟩
  rw [evaluateRules_of_runPasses harr (hn ▸ hpasses n)]
  exact ⟨m, hrun⟩

/-- The free flags at the end are not V. -/
theorem RuleRun.freed {k : RuleForm} {ins outs : List Word} {freed : List Flag} {s m t u : State}
    (h : RuleRun k ins outs s m t) (hfreed : FlagsFreed freed t u) (hv : .v ∉ freed) :
    RuleRun k ins outs s m u where
  least := h.least
  inputs := h.inputs
  a := (hfreed.unchanged .a (by simp)).trans h.a
  y := (hfreed.unchanged .y (by simp)).trans h.y
  x := (hfreed.unchanged .x (by simp)).trans h.x
  pc := (hfreed.unchanged .pc (by simp)).trans h.pc
  phase := (hfreed.flags .v hv).trans h.phase
  read addr := by rw [(hfreed.unchanged.sameMemory (by simp)).read8, h.read]

/-! ### The rule of REV -/

theorem byteElement_of_lt {e : Byte} (h : e.toNat < 0xFE) (y : Word) : byteElement y e = .fuzzy (y + zext8 e) := by
  have hstop : e ≠ 0xFF#8 := by rintro rfl; simp at h
  have hsep : e ≠ 0xFE#8 := by rintro rfl; simp at h
  rw [byteElement, if_neg hstop, if_neg hsep]

theorem map_byteElement {bytes : List Byte} (h : ∀ e ∈ bytes, e.toNat < 0xFE) (y : Word) :
    bytes.map (byteElement y) = (bytes.map (y + zext8 ·)).map .fuzzy := by
  rw [List.map_map]
  exact List.map_congr_left fun e he => byteElement_of_lt (h e he) y

theorem byteElements_of_rule {ins outs : List Byte} (h : ∀ e ∈ ins ++ outs, e.toNat < 0xFE) (y : Word) :
    (ins ++ 0xFE#8 :: outs ++ [0xFF#8]).map (byteElement y) =
      ruleList (ins.map (y + zext8 ·)) (outs.map (y + zext8 ·)) := by
  simp only [List.map_append, List.map_cons, map_byteElement fun e he => h e (List.mem_append_left _ he),
    map_byteElement fun e he => h e (List.mem_append_right _ he), ruleList, List.append_assoc, List.cons_append]
  rfl

theorem rev_one_rule {s : State} {ins outs : List Byte} (hinv : s.Inv) (hflat : s.Flat) (harr : s.arrival = none)
    (hv : s.flag .v = false) (hlen : ins.length + outs.length ≤ 1000) (hfuzzy : ∀ e ∈ ins ++ outs, e.toNat < 0xFE)
    (hlist : s.Holds s.x (ins ++ 0xFE#8 :: outs ++ [0xFF#8]))
    (hfar : ∀ o ∈ outs, ∀ k, k < ins.length + outs.length + 2 → s.x + BitVec.ofNat 16 k ≠ s.y + zext8 o) :
    ∃ m, RuleRun .bytes (ins.map (s.y + zext8 ·)) (outs.map (s.y + zext8 ·)) s m (rev s) := by
  have hlists := lists_of_holds hlist
  rw [byteElements_of_rule hfuzzy] at hlists
  obtain ⟨m, hrun⟩ := RuleForm.bytes.evaluateRules_one_rule hinv hflat harr hv (by simpa using hlen) hlists
    fun o ho i hi => by
      obtain ⟨e, he, rfl⟩ := List.mem_map.mp ho
      exact hfar e he i (by simpa [RuleForm.size] using hi)
  exact ⟨m, hrun.freed (rev_freed s) (by simp)⟩

/-! ### The rule of REVW -/

theorem wordElement_of_lt {e : Word} (h : e.toNat < 0xFFFE) : wordElement e = .fuzzy e := by
  have hstop : e ≠ 0xFFFF#16 := by rintro rfl; simp at h
  have hsep : e ≠ 0xFFFE#16 := by rintro rfl; simp at h
  rw [wordElement, if_neg hstop, if_neg hsep]

theorem map_wordElement {words : List Word} (h : ∀ e ∈ words, e.toNat < 0xFFFE) :
    words.map wordElement = words.map .fuzzy :=
  List.map_congr_left fun e he => wordElement_of_lt (h e he)

theorem wordElements_of_rule {ins outs : List Word} (h : ∀ e ∈ ins ++ outs, e.toNat < 0xFFFE) :
    (ins ++ 0xFFFE#16 :: outs ++ [0xFFFF#16]).map wordElement = ruleList ins outs := by
  simp only [List.map_append, List.map_cons, map_wordElement fun e he => h e (List.mem_append_left _ he),
    map_wordElement fun e he => h e (List.mem_append_right _ he), ruleList, List.append_assoc, List.cons_append]
  rfl

theorem revw_one_rule {s : State} {ins outs : List Word} (hinv : s.Inv) (hflat : s.Flat) (harr : s.arrival = none)
    (hv : s.flag .v = false) (hlen : ins.length + outs.length ≤ 1000)
    (hfuzzy : ∀ e ∈ ins ++ outs, e.toNat < 0xFFFE)
    (hlist : s.HoldsWords s.x (ins ++ 0xFFFE#16 :: outs ++ [0xFFFF#16]))
    (hfar : ∀ o ∈ outs, ∀ k, k < 2 * (ins.length + outs.length + 2) → s.x + BitVec.ofNat 16 k ≠ o) :
    ∃ m, RuleRun .words ins outs s m (revw s) := by
  have hlists := lists_of_holdsWords hlist
  rw [wordElements_of_rule hfuzzy] at hlists
  obtain ⟨m, hrun⟩ := RuleForm.words.evaluateRules_one_rule hinv hflat harr hv hlen hlists hfar
  exact ⟨m, hrun.freed (revw_freed s) (by simp)⟩

/-- The weight is applied if C selects it; the product over 256 is a byte again (R564). -/
theorem weightRule_a_toNat (s : State) : (weightRule s).a.toNat =
    if s.flag .c then s.a.toNat * ((s.read8 s.y).toNat + 1) / 256 else s.a.toNat := by
  unfold weightRule
  split
  · have hproduct : s.a.toNat * ((s.read8 s.y).toNat + 1) ≤ 255 * 256 :=
      Nat.mul_le_mul (Nat.le_of_lt_succ s.a.isLt) (s.read8 s.y).isLt
    rw [BitVec.toNat_ofNat, Nat.mod_eq_of_lt (by omega)]
  · rfl

theorem weightRule_y (s : State) : (weightRule s).y = if s.flag .c then s.y + 1 else s.y := by
  unfold weightRule
  split <;> rfl

/-- What REVW leaves in A and Y, by the state before it. -/
theorem RuleRun.weighed {ins outs : List Word} {s m t : State} (h : RuleRun .words ins outs s m t)
    (hflat : s.Flat) :
    (weightRule m).a.toNat =
        (if s.flag .c then s.leastOf s.a ins * ((s.read8 s.y).toNat + 1) / 256 else s.leastOf s.a ins) ∧
      (weightRule m).y = if s.flag .c then s.y + 1 else s.y := by
  have hc : m.flag .c = s.flag .c := State.flag_eq_of_ccr (h.inputs .ccr (by simp)) .c
  have hy : m.y = s.y := h.inputs .y (by simp)
  have hread := hflat.read8_congr (hflat.of_unchanged h.inputs (by simp)) (h.inputs .mem (by simp)) s.y
  rw [weightRule_a_toNat, weightRule_y, hc, hy, hread, h.least]
  exact ⟨rfl, rfl⟩

/-! ### The obligation -/

/-- REV completes. -/
theorem rev_keeps (s : State) : ((rev s).pc = s.pc ∨ (rev s).pc = s.pc - 2) ∧ FlagsKept [.s, .x, .i] s (rev s) ∧
    Unchanged [.a, .x, .pc, .ccr, .mem, .ppage, .gpage, .devices, .pending, .arrival, .fresh] s (rev s) := by
  obtain ⟨hpc, hloop⟩ := RuleForm.bytes.evaluateRules_keeps s
  have hend := rev_freed s
  obtain ⟨hflags, hrest⟩ := hloop.flagsFreed hend (by simp [RuleForm.parts]) (kept := [.s, .x, .i]) (by simp)
  exact ⟨(hend.unchanged .pc (by simp)).symm ▸ hpc, hflags, hrest.mono (by simp [RuleForm.parts])⟩

/-- REVW completes. -/
theorem revw_keeps (s : State) :
    ((revw s).pc = s.pc ∨ (revw s).pc = s.pc - 2) ∧ FlagsKept [.s, .x, .i, .c] s (revw s) ∧
      Unchanged [.a, .x, .y, .pc, .ccr, .mem, .ppage, .gpage, .devices, .pending, .arrival, .fresh] s (revw s) := by
  obtain ⟨hpc, hloop⟩ := RuleForm.words.evaluateRules_keeps s
  have hend := revw_freed s
  obtain ⟨hflags, hrest⟩ := hloop.flagsFreed hend (by simp [RuleForm.parts]) (kept := [.s, .x, .i, .c]) (by simp)
  exact ⟨(hend.unchanged .pc (by simp)).symm ▸ hpc, hflags, hrest.mono (by simp [RuleForm.parts])⟩

/-- Settles O55: the frame of the loop, and the run of one rule element by element. -/
theorem ruleEvaluation : Obligations.RuleEvaluation := by
  intro s
  refine ⟨⟨rev s, rfl, rev_keeps s⟩, ⟨revw s, rfl, revw_keeps s⟩, fun hinv hflat harr hv =>
    ⟨fun ins outs hlen hfuzzy hlist hfar => ⟨rev s, rfl, ?_⟩,
      fun ins outs hlen hfuzzy hlist hfar => ⟨revw s, rfl, ?_⟩⟩⟩
  · obtain ⟨m, hrun⟩ := rev_one_rule hinv hflat harr hv hlen hfuzzy hlist hfar
    have ha : (rev s).a = m.a := hrun.a
    have hread := hrun.read
    simp only [RuleForm.weigh, hrun.least] at hread
    exact ⟨ha ▸ hrun.least, by simpa [RuleForm.size] using hrun.x, hrun.pc, hrun.phase, hread⟩
  · obtain ⟨m, hrun⟩ := revw_one_rule hinv hflat harr hv hlen hfuzzy hlist hfar
    obtain ⟨ha, hy⟩ := hrun.weighed hflat
    have hread := hrun.read
    simp only [RuleForm.weigh, ha] at hread
    exact ⟨(congrArg BitVec.toNat hrun.a).trans ha, hrun.y.trans hy, hrun.x, hrun.pc, hrun.phase, hread⟩

end Sys2Proof.Machine

/-! PROOFS. The encoding family: what the decoder consumes is the encoding of what it answers (R120, R122, R160 to
R162, R166). -/

namespace Sys2Proof

/-! ### What a reader took, read off its answer -/

/-- Whenever the reader answers, its value and the bytes it took from the front satisfy `P`. -/
def Takes {α : Type} (r : Reader α) (P : α → List Byte → Prop) : Prop :=
  ∀ bs x rest, r bs = .ok (x, rest) → ∃ used, bs = used ++ rest ∧ P x used

section Readers

variable {α β : Type} {r : Reader α} {P : α → List Byte → Prop}

theorem takes_done {x : α} (h : P x []) : Takes (.done x) P := by
  rintro bs _ _ ⟨⟩
  exact ⟨[], rfl, h⟩

theorem takes_fail (e : DecodeError) : Takes (.fail e) P := by
  rintro bs _ _ ⟨⟩

theorem Takes.andThen {k : α → Reader β} {R : β → List Byte → Prop} (h : Takes r P)
    (hk : ∀ x used, P x used → Takes (k x) fun y more => R y (used ++ more)) : Takes (r.andThen k) R := by
  intro bs y rest hread
  unfold Reader.andThen at hread
  split at hread
  · next x mid hr =>
    obtain ⟨used, rfl, hP⟩ := h bs x mid hr
    obtain ⟨more, rfl, hR⟩ := hk x used hP mid y rest hread
    exact ⟨used ++ more, (List.append_assoc _ _ _).symm, hR⟩
  · cases hread

/-- The last reader of a layout hands its value on. -/
theorem Takes.map {f : α → β} {R : β → List Byte → Prop} (h : Takes r P) (hf : ∀ x used, P x used → R (f x) used) :
    Takes (r.andThen fun x => .done (f x)) R :=
  h.andThen fun x used hP => takes_done ((List.append_nil used).symm ▸ hf x used hP)

end Readers

theorem takes_byte : Takes readByte fun b used => used = [b] := by
  rintro (_ | ⟨b, bs⟩) _ _ ⟨⟩
  exact ⟨[b], rfl, rfl⟩

theorem takes_word : Takes readWord fun w used => used = [w.high, w.low] := by
  refine takes_byte.andThen fun hi _ hhi => takes_byte.map fun lo _ hlo => ?_
  rw [hhi, hlo, wordOf_high, wordOf_low]
  rfl

/-! ### The index postbyte (R130 to R137) -/

theorem const5_postbyte : ∀ b : Byte, b.getLsbD 5 = false →
    (IdxBase.ofCode (b.extractLsb' 6 2)).code ++ 0#1 ++ b.extractLsb' 0 5 = b := by
  decide

theorem auto_postbyte : ∀ b : Byte, b.getLsbD 5 = true → b.extractLsb' 5 3 ≠ 7#3 →
    (IdxReg.ofCode (b.extractLsb' 6 2)).code ++ 1#1 ++ BitVec.ofBool (b.getLsbD 4) ++ b.extractLsb' 0 4 = b := by
  decide

theorem extended_postbyte : ∀ b : Byte, b.extractLsb' 5 3 = 7#3 →
    7#3 ++ (IdxBase.ofCode (b.extractLsb' 3 2)).code ++ b.extractLsb' 0 3 = b := by
  decide

theorem signed_offset_bit (s : BitVec 1) (ff : Byte) : (s ++ ff).extractLsb' 8 1 = s := by
  revert s ff; decide

theorem signed_offset_byte (s : BitVec 1) (ff : Byte) : (s ++ ff).extractLsb' 0 8 = ff := by
  revert s ff; decide

theorem encXb_const9 (base : IdxBase) (s : BitVec 1) (ff : Byte) :
    encXb (.const9 base (s ++ ff)) = [7#3 ++ base.code ++ (0#2 ++ s), ff] := by
  have hcode : ∀ (c : BitVec 2) (s : BitVec 1), 7#3 ++ c ++ 0#2 ++ s = 7#3 ++ c ++ (0#2 ++ s) := by decide
  rw [encXb, signed_offset_bit, signed_offset_byte, hcode]

theorem encXb_acc (off : IdxAcc) (base : IdxBase) :
    encXb (.acc off base) = [7#3 ++ base.code ++ (1#1 ++ off.code)] := by
  have hcode : ∀ (c d : BitVec 2), 7#3 ++ c ++ 1#1 ++ d = 7#3 ++ c ++ (1#1 ++ d) := by decide
  rw [encXb, hcode]

theorem three_bits : ∀ c : BitVec 3,
    c = 0#3 ∨ c = 1#3 ∨ c = 2#3 ∨ c = 3#3 ∨ c = 4#3 ∨ c = 5#3 ∨ c = 6#3 ∨ c = 7#3 := by
  decide

/-- By the field `zzz`, one form and its extension bytes each. -/
theorem takes_extended (base : IdxBase) (z : BitVec 3) :
    Takes (extendedReader base z) fun xb used => encXb xb = (7#3 ++ base.code ++ z) :: used := by
  rcases three_bits z with rfl | rfl | rfl | rfl | rfl | rfl | rfl | rfl
  · exact takes_byte.map fun ff _ h => h ▸ encXb_const9 base 0#1 ff
  · exact takes_byte.map fun ff _ h => h ▸ encXb_const9 base 1#1 ff
  · exact takes_word.map fun n _ h => h ▸ rfl
  · exact takes_word.map fun n _ h => h ▸ rfl
  · exact takes_done (encXb_acc .a base)
  · exact takes_done (encXb_acc .b base)
  · exact takes_done (encXb_acc .d base)
  · exact takes_done rfl

theorem takes_xb : Takes readXb fun xb used => used = encXb xb := by
  refine takes_byte.andThen fun b _ hb => ?_
  subst hb
  split
  · next h5 => exact takes_done (congrArg (fun b => [b]) (const5_postbyte b h5)).symm
  · next h5 =>
    split
    · next h7 =>
      exact takes_done (congrArg (fun b => [b]) (auto_postbyte b (Bool.eq_true_of_not_eq_false h5) h7)).symm
    · next h7 =>
      intro bs xb rest hread
      obtain ⟨used, hbs, henc⟩ := takes_extended _ (b.extractLsb' 0 3) bs xb rest hread
      rw [extended_postbyte b (of_not_not h7)] at henc
      exact ⟨used, hbs, henc.symm⟩


theorem takes_xbOf (accepts : Xb → Bool) (e : DecodeError) :
    Takes (readXbOf accepts e) fun xb used => accepts xb = true ∧ used = encXb xb := by
  refine takes_xb.andThen fun xb used hused => ?_
  split
  · next h => exact takes_done ⟨h, (List.append_nil used).trans hused⟩
  · exact takes_fail e

theorem takes_dir : Takes readDir fun ea used => ∃ dd, ea = .dir dd ∧ used = [dd] :=
  takes_byte.map fun dd _ h => ⟨dd, rfl, h⟩

theorem takes_ext : Takes readExt fun ea used => ∃ hhll : Word, ea = .ext hhll ∧ used = [hhll.high, hhll.low] :=
  takes_word.map fun hhll _ h => ⟨hhll, rfl, h⟩

theorem takes_idxDirect : Takes readIdxDirect fun ea used =>
    ∃ xb, ea = .idx xb ∧ Ea.notIndirect (.idx xb) = true ∧ used = encXb xb :=
  (takes_xbOf _ _).map fun xb _ ⟨hxb, h⟩ => ⟨xb, rfl, hxb, h⟩

theorem takes_moveXb (v : Variant) : Takes (readMoveXb v) fun ea used =>
    ∃ xb, ea = .idx xb ∧ Ea.moveForm v (.idx xb) = true ∧ used = encXb xb :=
  (takes_xbOf _ _).map fun xb _ ⟨hxb, h⟩ => ⟨xb, rfl, hxb, h⟩

/-! ### The operand layouts (R122): what a cell of an opcode map answers is written with that opcode -/

/-- Whether the variant has the instruction, whether it is another name of words, and how it is written. -/
def Instr.entry (v : Variant) (i : Instr) : Bool × Bool × List Byte := (i.wellFormed v, i.isAlias, encode i)

theorem Instr.entry_eq_iff {v : Variant} {i : Instr} {ok alt : Bool} {bs : List Byte} :
    i.entry v = (ok, alt, bs) ↔ i.wellFormed v = ok ∧ i.isAlias = alt ∧ encode i = bs := by
  simp only [Instr.entry, Prod.mk.injEq]

/-- The reader of opcode `op` after the bytes `lead` answers only instructions that the variant has, each under its
own name, and each written with `lead`, `op` and the bytes the reader took. -/
def OpCell (v : Variant) (lead : List Byte) (op : Nat) (r : Reader Instr) : Prop :=
  Takes r fun i used => i.entry v = (true, false, lead ++ BitVec.ofNat 8 op :: used)

namespace OpCell

variable {v : Variant} {lead : List Byte} {op : Nat}

theorem inh {i : Instr} (h : i.entry v = (true, false, lead ++ [BitVec.ofNat 8 op])) : OpCell v lead op (inh i) :=
  takes_done h

theorem imm8 {f : Byte → Instr} (h : ∀ {b}, (f b).entry v = (true, false, lead ++ [BitVec.ofNat 8 op, b])) :
    OpCell v lead op (imm8 f) :=
  takes_byte.map fun _ _ hb => hb ▸ h

theorem imm16 {f : Word → Instr}
    (h : ∀ {w}, (f w).entry v = (true, false, lead ++ [BitVec.ofNat 8 op, w.high, w.low])) :
    OpCell v lead op (imm16 f) :=
  takes_word.map fun _ _ hw => hw ▸ h

theorem dir {f : Ea → Instr} (h : ∀ {dd}, (f (.dir dd)).entry v = (true, false, lead ++ [BitVec.ofNat 8 op, dd])) :
    OpCell v lead op (dir f) := by
  refine takes_dir.map ?_
  rintro _ _ ⟨dd, rfl, rfl⟩
  exact h

theorem ext {f : Ea → Instr}
    (h : ∀ {hhll}, (f (.ext hhll)).entry v = (true, false, lead ++ [BitVec.ofNat 8 op, hhll.high, hhll.low])) :
    OpCell v lead op (ext f) := by
  refine takes_ext.map ?_
  rintro _ _ ⟨hhll, rfl, rfl⟩
  exact h

/-- The reader accepts those postbytes with which the instruction is well-formed (R139). -/
theorem idx {accepts : Xb → Bool} {f : Xb → Instr}
    (h : ∀ {xb}, (f xb).entry v = (accepts xb, false, lead ++ BitVec.ofNat 8 op :: encXb xb)) :
    OpCell v lead op (idx accepts f) :=
  (takes_xbOf accepts _).map fun _ _ ⟨hxb, hused⟩ => hused ▸ hxb ▸ h

theorem maskDir {f : Ea → Byte → Instr}
    (h : ∀ {dd mm}, (f (.dir dd) mm).entry v = (true, false, lead ++ [BitVec.ofNat 8 op, dd, mm])) :
    OpCell v lead op (mask readDir f) := by
  refine takes_dir.andThen ?_
  rintro _ _ ⟨dd, rfl, rfl⟩
  exact takes_byte.map fun _ _ hmm => hmm ▸ h

theorem maskExt {f : Ea → Byte → Instr}
    (h : ∀ {hhll mm}, (f (.ext hhll) mm).entry v =
      (true, false, lead ++ [BitVec.ofNat 8 op, hhll.high, hhll.low, mm])) :
    OpCell v lead op (mask readExt f) := by
  refine takes_ext.andThen ?_
  rintro _ _ ⟨hhll, rfl, rfl⟩
  exact takes_byte.map fun _ _ hmm => hmm ▸ h

theorem maskIdx {f : Ea → Byte → Instr}
    (h : ∀ {xb mm}, (f (.idx xb) mm).entry v =
      (Ea.notIndirect (.idx xb), false, lead ++ BitVec.ofNat 8 op :: (encXb xb ++ [mm]))) :
    OpCell v lead op (mask readIdxDirect f) := by
  refine takes_idxDirect.andThen ?_
  rintro _ _ ⟨xb, rfl, hxb, rfl⟩
  exact takes_byte.map fun _ _ hmm => hmm ▸ hxb ▸ h

theorem maskRelDir {f : Ea → Byte → Byte → Instr}
    (h : ∀ {dd mm rr}, (f (.dir dd) mm rr).entry v = (true, false, lead ++ [BitVec.ofNat 8 op, dd, mm, rr])) :
    OpCell v lead op (maskRel readDir f) := by
  refine takes_dir.andThen ?_
  rintro _ _ ⟨dd, rfl, rfl⟩
  exact takes_byte.andThen fun _ _ hmm => takes_byte.map fun _ _ hrr => hmm ▸ hrr ▸ h

theorem maskRelExt {f : Ea → Byte → Byte → Instr}
    (h : ∀ {hhll mm rr}, (f (.ext hhll) mm rr).entry v =
      (true, false, lead ++ [BitVec.ofNat 8 op, hhll.high, hhll.low, mm, rr])) :
    OpCell v lead op (maskRel readExt f) := by
  refine takes_ext.andThen ?_
  rintro _ _ ⟨hhll, rfl, rfl⟩
  exact takes_byte.andThen fun _ _ hmm => takes_byte.map fun _ _ hrr => hmm ▸ hrr ▸ h

theorem maskRelIdx {f : Ea → Byte → Byte → Instr}
    (h : ∀ {xb mm rr}, (f (.idx xb) mm rr).entry v =
      (Ea.notIndirect (.idx xb), false, lead ++ BitVec.ofNat 8 op :: (encXb xb ++ [mm, rr]))) :
    OpCell v lead op (maskRel readIdxDirect f) := by
  refine takes_idxDirect.andThen ?_
  rintro _ _ ⟨xb, rfl, hxb, rfl⟩
  exact takes_byte.andThen fun _ _ hmm => takes_byte.map fun _ _ hrr => hmm ▸ hrr ▸ hxb ▸ h

/-! ### Moves (R262) -/

theorem moveImmExt {α : Type} {imm : Reader α} {enc : α → List Byte} {f : α → Ea → Instr}
    (himm : Takes imm fun u used => used = enc u)
    (h : ∀ {u dst}, (f u (.ext dst)).entry v =
      (true, false, lead ++ BitVec.ofNat 8 op :: (enc u ++ [dst.high, dst.low]))) :
    OpCell v lead op (moveImmExt imm f) := by
  refine himm.andThen fun u _ hu => takes_ext.map ?_
  rintro _ _ ⟨dst, rfl, rfl⟩
  exact hu ▸ h

theorem moveImmIdx {α : Type} {imm : Reader α} {enc : α → List Byte} {f : α → Ea → Instr}
    (himm : Takes imm fun u used => used = enc u)
    (h : ∀ {u xb}, (f u (.idx xb)).entry v =
      (Ea.moveForm v (.idx xb), false, lead ++ BitVec.ofNat 8 op :: (encXb xb ++ enc u))) :
    OpCell v lead op (moveImmIdx v imm f) := by
  refine (takes_moveXb v).andThen ?_
  rintro _ _ ⟨xb, rfl, hxb, rfl⟩
  exact himm.map fun _ _ hu => hu ▸ hxb ▸ h

theorem moveExtExt {f : Ea → Ea → Instr}
    (h : ∀ {src dst}, (f (.ext src) (.ext dst)).entry v =
      (true, false, lead ++ [BitVec.ofNat 8 op, src.high, src.low, dst.high, dst.low])) :
    OpCell v lead op (moveExtExt f) := by
  refine takes_ext.andThen ?_
  rintro _ _ ⟨src, rfl, rfl⟩
  refine takes_ext.map ?_
  rintro _ _ ⟨dst, rfl, rfl⟩
  exact h

theorem moveExtIdx {f : Ea → Ea → Instr}
    (h : ∀ {src xb}, (f (.ext src) (.idx xb)).entry v =
      (Ea.moveForm v (.idx xb), false, lead ++ BitVec.ofNat 8 op :: (encXb xb ++ [src.high, src.low]))) :
    OpCell v lead op (moveExtIdx v f) := by
  refine (takes_moveXb v).andThen ?_
  rintro _ _ ⟨xb, rfl, hxb, rfl⟩
  refine takes_ext.map ?_
  rintro _ _ ⟨src, rfl, rfl⟩
  exact hxb ▸ h

theorem moveIdxExt {f : Ea → Ea → Instr}
    (h : ∀ {xb dst}, (f (.idx xb) (.ext dst)).entry v =
      (Ea.moveForm v (.idx xb) && true, false, lead ++ BitVec.ofNat 8 op :: (encXb xb ++ [dst.high, dst.low]))) :
    OpCell v lead op (moveIdxExt v f) := by
  refine (takes_moveXb v).andThen ?_
  rintro _ _ ⟨xb, rfl, hxb, rfl⟩
  refine takes_ext.map ?_
  rintro _ _ ⟨dst, rfl, rfl⟩
  rw [h, hxb]
  rfl

theorem moveIdxIdx {f : Ea → Ea → Instr}
    (h : ∀ {xa xb}, (f (.idx xa) (.idx xb)).entry v =
      (Ea.moveForm v (.idx xa) && Ea.moveForm v (.idx xb), false,
        lead ++ BitVec.ofNat 8 op :: (encXb xa ++ encXb xb))) :
    OpCell v lead op (moveIdxIdx v f) := by
  refine (takes_moveXb v).andThen ?_
  rintro _ _ ⟨xa, rfl, hxa, rfl⟩
  refine (takes_moveXb v).map ?_
  rintro _ _ ⟨xb, rfl, hxb, rfl⟩
  rw [h, hxa, hxb]
  rfl

/-! ### CALL, loop primitives, transfers -/

theorem callExt : OpCell v [] 0x4A callExt := by
  refine takes_ext.andThen ?_
  rintro _ _ ⟨hhll, rfl, rfl⟩
  exact takes_byte.map fun _ _ hpg => hpg ▸ rfl

theorem callIdx : OpCell v [] 0x4B callIdx := by
  refine takes_xb.andThen fun xb used hused => ?_
  subst hused
  split
  · next hind => exact takes_done (Instr.entry_eq_iff.mpr ⟨hind, rfl, (congrArg _ (List.append_nil _)).symm⟩)
  · next hind =>
    have hdirect : CallOp.wellFormed (.direct (.idx xb) 0) = true := by
      simpa [CallOp.wellFormed, Ea.notDirect, Ea.notIndirect] using hind
    exact takes_byte.map fun pg _ hpg => hpg ▸ Instr.entry_eq_iff.mpr ⟨hdirect, rfl, rfl⟩

end OpCell

theorem LoopReg.code_of_ofCode {c : BitVec 3} {r : LoopReg} (h : LoopReg.ofCode c = some r) : r.code = c := by
  rcases three_bits c with rfl | rfl | rfl | rfl | rfl | rfl | rfl | rfl <;> cases h <;> rfl

/-- Each of the six selections has its loop primitive (R141). -/
theorem entry_of_loopOf {v : Variant} {sel : BitVec 3} {r : LoopReg} {off : BitVec 9} {i : Instr}
    (h : loopOf sel r off = some i) : i.entry v = (true, false, encLoop sel r off) := by
  rcases three_bits sel with rfl | rfl | rfl | rfl | rfl | rfl | rfl | rfl <;> cases h <;> rfl

theorem loop_postbyte : ∀ lb : Byte, lb.getLsbD 3 = false →
    lb.extractLsb' 5 3 ++ lb.extractLsb' 4 1 ++ 0#1 ++ lb.extractLsb' 0 3 = lb := by
  decide

theorem transfer_postbyte : ∀ eb : Byte,
    transferPostbyte (eb.getLsbD 7) (.ofCode (eb.extractLsb' 4 3)) (eb.getLsbD 3) (.ofCode (eb.extractLsb' 0 3)) =
      eb := by
  decide

namespace OpCell

variable {v : Variant}

theorem loop : OpCell v [] 0x04 loop := by
  refine takes_byte.andThen fun lb _ hlb => takes_byte.andThen fun rr _ hrr => ?_
  subst hlb hrr
  split
  · exact takes_fail _
  · next r hr =>
    have hbit : lb.getLsbD 3 = false ∧ LoopReg.ofCode (lb.extractLsb' 0 3) = some r := by simpa using hr
    split
    · exact takes_fail _
    · next i hi =>
      have hcode := LoopReg.code_of_ofCode hbit.2
      have hentry := entry_of_loopOf (v := v) hi
      rw [encLoop, signed_offset_bit, signed_offset_byte, hcode, loop_postbyte lb hbit.1] at hentry
      exact takes_done hentry

theorem transfer : OpCell v [] 0xB7 (transfer v) := by
  refine takes_byte.andThen fun eb _ heb => ?_
  subst heb
  have hbyte := transfer_postbyte eb
  simp only
  split
  · exact takes_fail _
  · next halt =>
    have hwf : (!eb.getLsbD 3 || v.isHcs12x) = true := by
      cases h3 : eb.getLsbD 3 <;> cases hx : v.isHcs12x <;> simp_all
    split
    · next h7 =>
      rw [h7] at hbyte
      exact takes_done (Instr.entry_eq_iff.mpr ⟨hwf, rfl, congrArg (fun b => [0xB7, b]) hbyte⟩)
    · next h7 =>
      rw [Bool.eq_false_of_not_eq_true h7] at hbyte
      exact takes_done (Instr.entry_eq_iff.mpr ⟨hwf, rfl, congrArg (fun b => [0xB7, b]) hbyte⟩)

end OpCell

/-! ### The two opcode maps, column by column (R160, R162) -/

/-- The cells of a column of an opcode map, from opcode `op` on. -/
def OpCells (v : Variant) (lead : List Byte) : Nat → List (Reader Instr) → Prop
  | _, [] => True
  | op, r :: rest => OpCell v lead op r ∧ OpCells v lead (op + 1) rest

theorem page2Col0_cells (v : Variant) : OpCells v [0x18] 0x00 (page2Col0 v) :=
  ⟨.moveImmIdx takes_word rfl, .moveExtIdx rfl, .moveIdxIdx rfl, .moveImmExt takes_word rfl, .moveExtExt rfl,
    .moveIdxExt rfl, .inh rfl, .inh rfl, .moveImmIdx takes_byte rfl, .moveExtIdx rfl, .moveIdxIdx rfl,
    .moveImmExt takes_byte rfl, .moveExtExt rfl, .moveIdxExt rfl, .inh rfl, .inh rfl, trivial⟩

theorem page2Col1_cells (v : Variant) : OpCells v [0x18] 0x10 (page2Col1 v) :=
  ⟨.inh rfl, .inh rfl, .imm16 rfl, .inh rfl, .inh rfl, .inh rfl, .inh rfl, .inh rfl, .idx rfl, .idx rfl, .idx rfl,
    .idx rfl, .idx rfl, .idx rfl, .idx rfl, .idx rfl, trivial⟩

theorem page2Col2_cells (v : Variant) : OpCells v [0x18] 0x20 (page2Col2 v) :=
  ⟨.imm16 rfl, .imm16 rfl, .imm16 rfl, .imm16 rfl, .imm16 rfl, .imm16 rfl, .imm16 rfl, .imm16 rfl, .imm16 rfl,
    .imm16 rfl, .imm16 rfl, .imm16 rfl, .imm16 rfl, .imm16 rfl, .imm16 rfl, .imm16 rfl, trivial⟩

/-- The cells of opcodes $3A to $3F, which are no traps on either variant (R161). -/
theorem page2Col3_last_cells (v : Variant) : OpCells v [0x18] 0x3A ((page2Col3 v).drop 10) :=
  ⟨.inh rfl, .inh rfl, .inh rfl, .idx rfl, .inh rfl, .idx rfl, trivial⟩

theorem page2Col3_cells : OpCells .hcs12x [0x18] 0x30 (page2Col3 .hcs12x) :=
  ⟨.inh rfl, .inh rfl, .inh rfl, .inh rfl, .inh rfl, .maskDir rfl, .maskExt rfl, .maskIdx rfl, .inh rfl, .inh rfl,
    page2Col3_last_cells .hcs12x⟩

theorem page2Col4_cells : OpCells .hcs12x [0x18] 0x40 (page2Col4 .hcs12x) :=
  ⟨.inh rfl, .inh rfl, .inh rfl, .inh rfl, .inh rfl, .inh rfl, .inh rfl, .inh rfl, .inh rfl, .inh rfl, .inh rfl,
    .inh rfl, .inh rfl, .inh rfl, .inh rfl, .inh rfl, trivial⟩

theorem page2Col5_cells : OpCells .hcs12x [0x18] 0x50 (page2Col5 .hcs12x) :=
  ⟨.inh rfl, .inh rfl, .inh rfl, .inh rfl, .inh rfl, .inh rfl, .inh rfl, .inh rfl, .inh rfl, .inh rfl, .dir rfl,
    .dir rfl, .dir rfl, .dir rfl, .dir rfl, .dir rfl, trivial⟩

theorem page2Col6_cells : OpCells .hcs12x [0x18] 0x60 (page2Col6 .hcs12x) :=
  ⟨.idx rfl, .idx rfl, .idx rfl, .idx rfl, .idx rfl, .idx rfl, .idx rfl, .idx rfl, .idx rfl, .idx rfl, .idx rfl,
    .idx rfl, .idx rfl, .idx rfl, .idx rfl, .idx rfl, trivial⟩

theorem page2Col7_cells : OpCells .hcs12x [0x18] 0x70 (page2Col7 .hcs12x) :=
  ⟨.ext rfl, .ext rfl, .ext rfl, .ext rfl, .ext rfl, .ext rfl, .ext rfl, .ext rfl, .ext rfl, .ext rfl, .ext rfl,
    .ext rfl, .ext rfl, .ext rfl, .ext rfl, .ext rfl, trivial⟩

theorem page2Col8_cells : OpCells .hcs12x [0x18] 0x80 (page2Col8 .hcs12x) :=
  ⟨.imm16 rfl, .inh rfl, .imm16 rfl, .imm16 rfl, .imm16 rfl, .imm16 rfl, .inh rfl, .inh rfl, .imm16 rfl, .imm16 rfl,
    .imm16 rfl, .imm16 rfl, .imm16 rfl, .imm16 rfl, .imm16 rfl, .imm16 rfl, trivial⟩

theorem page2Col9_cells : OpCells .hcs12x [0x18] 0x90 (page2Col9 .hcs12x) :=
  ⟨.dir rfl, .inh rfl, .dir rfl, .dir rfl, .dir rfl, .dir rfl, .dir rfl, .inh rfl, .dir rfl, .dir rfl, .dir rfl,
    .dir rfl, .dir rfl, .dir rfl, .dir rfl, .dir rfl, trivial⟩

theorem page2ColA_cells : OpCells .hcs12x [0x18] 0xA0 (page2ColA .hcs12x) :=
  ⟨.idx rfl, .inh rfl, .idx rfl, .idx rfl, .idx rfl, .idx rfl, .idx rfl, .inh rfl, .idx rfl, .idx rfl, .idx rfl,
    .idx rfl, .idx rfl, .idx rfl, .idx rfl, .idx rfl, trivial⟩

theorem page2ColB_cells : OpCells .hcs12x [0x18] 0xB0 (page2ColB .hcs12x) :=
  ⟨.ext rfl, .inh rfl, .ext rfl, .ext rfl, .ext rfl, .ext rfl, .ext rfl, .inh rfl, .ext rfl, .ext rfl, .ext rfl,
    .ext rfl, .ext rfl, .ext rfl, .ext rfl, .ext rfl, trivial⟩

theorem page2ColC_cells : OpCells .hcs12x [0x18] 0xC0 (page2ColC .hcs12x) :=
  ⟨.imm16 rfl, .inh rfl, .imm16 rfl, .imm16 rfl, .imm16 rfl, .imm16 rfl, .inh rfl, .inh rfl, .imm16 rfl, .imm16 rfl,
    .imm16 rfl, .imm16 rfl, .inh rfl, .inh rfl, .inh rfl, .inh rfl, trivial⟩

theorem page2ColD_cells : OpCells .hcs12x [0x18] 0xD0 (page2ColD .hcs12x) :=
  ⟨.dir rfl, .inh rfl, .dir rfl, .dir rfl, .dir rfl, .dir rfl, .dir rfl, .inh rfl, .dir rfl, .dir rfl, .dir rfl,
    .dir rfl, .dir rfl, .dir rfl, .dir rfl, .dir rfl, trivial⟩

theorem page2ColE_cells : OpCells .hcs12x [0x18] 0xE0 (page2ColE .hcs12x) :=
  ⟨.idx rfl, .inh rfl, .idx rfl, .idx rfl, .idx rfl, .idx rfl, .idx rfl, .idx rfl, .idx rfl, .idx rfl, .idx rfl,
    .idx rfl, .idx rfl, .idx rfl, .idx rfl, .idx rfl, trivial⟩

theorem page2ColF_cells : OpCells .hcs12x [0x18] 0xF0 (page2ColF .hcs12x) :=
  ⟨.ext rfl, .inh rfl, .ext rfl, .ext rfl, .ext rfl, .ext rfl, .ext rfl, .ext rfl, .ext rfl, .ext rfl, .ext rfl,
    .ext rfl, .ext rfl, .ext rfl, .ext rfl, .ext rfl, trivial⟩

/-! ### The pages put together -/

theorem OpCells.getD {v : Variant} {lead : List Byte} {rs : List (Reader Instr)} {op : Nat} (h : OpCells v lead op rs)
    (row : Nat) : OpCell v lead (op + row) (rs.getD row (.fail .truncated)) := by
  induction rs generalizing op row with
  | nil => exact takes_fail _
  | cons r rest ih =>
    obtain ⟨hr, hrest⟩ := h
    cases row with
    | zero => exact hr
    | succ row => exact Nat.add_right_comm op 1 row ▸ ih hrest row

/-- The columns of an opcode map, from column `c` on. -/
def OpColumns (v : Variant) (lead : List Byte) : Nat → List (List (Reader Instr)) → Prop
  | _, [] => True
  | c, col :: rest => OpCells v lead (16 * c) col ∧ OpColumns v lead (c + 1) rest

theorem OpColumns.getD {v : Variant} {lead : List Byte} {map : List (List (Reader Instr))} {c : Nat}
    (h : OpColumns v lead c map) (k : Nat) : OpCells v lead (16 * (c + k)) (map.getD k []) := by
  induction map generalizing c k with
  | nil => exact trivial
  | cons col rest ih =>
    obtain ⟨hcol, hrest⟩ := h
    cases k with
    | zero => exact hcol
    | succ k => exact Nat.add_right_comm c 1 k ▸ ih hrest k

theorem OpCell.takes {v : Variant} {lead : List Byte} {op : Byte} {r : Reader Instr} (h : OpCell v lead op.toNat r) :
    Takes r fun i used => i.entry v = (true, false, lead ++ op :: used) := by
  rwa [OpCell, BitVec.ofNat_toNat, BitVec.setWidth_eq] at h

/-- The cell of an opcode in a column of which the cells from row `low` on are known. -/
theorem mapCell_cell {v : Variant} {lead : List Byte} {map : List (List (Reader Instr))} {op : Byte} {low : Nat}
    (h : OpCells v lead (16 * (op.toNat / 16) + low) ((map.getD (op.toNat / 16) []).drop low))
    (hlow : low ≤ op.toNat % 16) : OpCell v lead op.toNat (mapCell map op) := by
  have hcell := h.getD (op.toNat % 16 - low)
  have hop : 16 * (op.toNat / 16) + low + (op.toNat % 16 - low) = op.toNat := by omega
  have hrow : low + (op.toNat % 16 - low) = op.toNat % 16 := by omega
  rw [hop, List.getD_eq_getElem?_getD, List.getElem?_drop, hrow, ← List.getD_eq_getElem?_getD] at hcell
  exact hcell

theorem OpColumns.mapCell {v : Variant} {lead : List Byte} {map : List (List (Reader Instr))}
    (h : OpColumns v lead 0 map) (op : Byte) : OpCell v lead op.toNat (mapCell map op) := by
  have hcol := h.getD (op.toNat / 16)
  rw [Nat.zero_add] at hcol
  exact mapCell_cell (low := 0) hcol (Nat.zero_le _)

/-- Page 2: every cell of the map of HCS12X, and of HCS12 the cells that are no traps (R161, R162). -/
theorem takes_page2 (v : Variant) (op : Byte) :
    Takes (page2 v op) fun i used => i.entry v = (true, false, [0x18] ++ op :: used) := by
  unfold page2
  split
  · next htrap =>
    have hnumber : v.trapNumber op = true := (Bool.and_eq_true_iff.mp htrap).2
    exact takes_done (Instr.entry_eq_iff.mpr ⟨hnumber, rfl, rfl⟩)
  · next htrap =>
    refine OpCell.takes ?_
    cases v with
    | hcs12x =>
      refine OpColumns.mapCell ?_ op
      exact ⟨page2Col0_cells _, page2Col1_cells _, page2Col2_cells _, page2Col3_cells,
        page2Col4_cells, page2Col5_cells, page2Col6_cells, page2Col7_cells, page2Col8_cells, page2Col9_cells,
        page2ColA_cells, page2ColB_cells, page2ColC_cells, page2ColD_cells, page2ColE_cells, page2ColF_cells,
        trivial⟩
    | hcs12 =>
      have hop : op.toNat < 0x30 ∨ 0x3A ≤ op.toNat ∧ op.toNat < 0x40 := by
        simp only [Variant.isHcs12x, Variant.trapNumber, Bool.not_false, Bool.true_and, Bool.or_eq_true,
          Bool.and_eq_true, decide_eq_true_eq] at htrap
        omega
      have hcolumn : op.toNat / 16 < 3 ∨ op.toNat / 16 = 3 ∧ 10 ≤ op.toNat % 16 := by omega
      rcases hcolumn with hcolumn | ⟨hcolumn, hrow⟩
      · refine mapCell_cell (low := 0) ?_ (Nat.zero_le _)
        generalize op.toNat / 16 = c at hcolumn
        match c, hcolumn with
        | 0, _ => exact page2Col0_cells _
        | 1, _ => exact page2Col1_cells _
        | 2, _ => exact page2Col2_cells _
      · refine mapCell_cell (low := 10) ?_ hrow
        rw [hcolumn]
        exact page2Col3_last_cells _

theorem OpCell.page2 {v : Variant} : OpCell v [] 0x18 (readByte.andThen (page2 v)) :=
  takes_byte.andThen fun op _ hop => hop ▸ takes_page2 v op

/-! ### Page 1, the same on both variants (R160) -/

theorem page1Col0_cells (v : Variant) : OpCells v [] 0x00 (page1Col0 v) :=
  ⟨.inh rfl, .inh rfl, .inh rfl, .inh rfl, .loop, .idx rfl, .ext rfl, .imm8 rfl, .inh rfl, .inh rfl, .inh rfl,
    .inh rfl, .maskIdx rfl, .maskIdx rfl, .maskRelIdx rfl, .maskRelIdx rfl, trivial⟩

theorem page1Col1_cells (v : Variant) : OpCells v [] 0x10 (page1Col1 v) :=
  ⟨.imm8 rfl, .inh rfl, .inh rfl, .inh rfl, .imm8 rfl, .idx rfl, .ext rfl, .dir rfl, .page2, .idx rfl, .idx rfl,
    .idx rfl, .maskExt rfl, .maskExt rfl, .maskRelExt rfl, .maskRelExt rfl, trivial⟩

theorem page1Col2_cells (v : Variant) : OpCells v [] 0x20 (page1Col2 v) :=
  ⟨.imm8 rfl, .imm8 rfl, .imm8 rfl, .imm8 rfl, .imm8 rfl, .imm8 rfl, .imm8 rfl, .imm8 rfl, .imm8 rfl, .imm8 rfl,
    .imm8 rfl, .imm8 rfl, .imm8 rfl, .imm8 rfl, .imm8 rfl, .imm8 rfl, trivial⟩

theorem page1Col3_cells (v : Variant) : OpCells v [] 0x30 (page1Col3 v) :=
  ⟨.inh rfl, .inh rfl, .inh rfl, .inh rfl, .inh rfl, .inh rfl, .inh rfl, .inh rfl, .inh rfl, .inh rfl, .inh rfl,
    .inh rfl, .inh rfl, .inh rfl, .inh rfl, .inh rfl, trivial⟩

theorem page1Col4_cells (v : Variant) : OpCells v [] 0x40 (page1Col4 v) :=
  ⟨.inh rfl, .inh rfl, .inh rfl, .inh rfl, .inh rfl, .inh rfl, .inh rfl, .inh rfl, .inh rfl, .inh rfl, .callExt,
    .callIdx, .maskDir rfl, .maskDir rfl, .maskRelDir rfl, .maskRelDir rfl, trivial⟩

theorem page1Col5_cells (v : Variant) : OpCells v [] 0x50 (page1Col5 v) :=
  ⟨.inh rfl, .inh rfl, .inh rfl, .inh rfl, .inh rfl, .inh rfl, .inh rfl, .inh rfl, .inh rfl, .inh rfl, .dir rfl,
    .dir rfl, .dir rfl, .dir rfl, .dir rfl, .dir rfl, trivial⟩

theorem page1Col6_cells (v : Variant) : OpCells v [] 0x60 (page1Col6 v) :=
  ⟨.idx rfl, .idx rfl, .idx rfl, .idx rfl, .idx rfl, .idx rfl, .idx rfl, .idx rfl, .idx rfl, .idx rfl, .idx rfl,
    .idx rfl, .idx rfl, .idx rfl, .idx rfl, .idx rfl, trivial⟩

theorem page1Col7_cells (v : Variant) : OpCells v [] 0x70 (page1Col7 v) :=
  ⟨.ext rfl, .ext rfl, .ext rfl, .ext rfl, .ext rfl, .ext rfl, .ext rfl, .ext rfl, .ext rfl, .ext rfl, .ext rfl,
    .ext rfl, .ext rfl, .ext rfl, .ext rfl, .ext rfl, trivial⟩

theorem page1Col8_cells (v : Variant) : OpCells v [] 0x80 (page1Col8 v) :=
  ⟨.imm8 rfl, .imm8 rfl, .imm8 rfl, .imm16 rfl, .imm8 rfl, .imm8 rfl, .imm8 rfl, .inh rfl, .imm8 rfl, .imm8 rfl,
    .imm8 rfl, .imm8 rfl, .imm16 rfl, .imm16 rfl, .imm16 rfl, .imm16 rfl, trivial⟩

theorem page1Col9_cells (v : Variant) : OpCells v [] 0x90 (page1Col9 v) :=
  ⟨.dir rfl, .dir rfl, .dir rfl, .dir rfl, .dir rfl, .dir rfl, .dir rfl, .inh rfl, .dir rfl, .dir rfl, .dir rfl,
    .dir rfl, .dir rfl, .dir rfl, .dir rfl, .dir rfl, trivial⟩

theorem page1ColA_cells (v : Variant) : OpCells v [] 0xA0 (page1ColA v) :=
  ⟨.idx rfl, .idx rfl, .idx rfl, .idx rfl, .idx rfl, .idx rfl, .idx rfl, .inh rfl, .idx rfl, .idx rfl, .idx rfl,
    .idx rfl, .idx rfl, .idx rfl, .idx rfl, .idx rfl, trivial⟩

theorem page1ColB_cells (v : Variant) : OpCells v [] 0xB0 (page1ColB v) :=
  ⟨.ext rfl, .ext rfl, .ext rfl, .ext rfl, .ext rfl, .ext rfl, .ext rfl, .transfer, .ext rfl, .ext rfl, .ext rfl,
    .ext rfl, .ext rfl, .ext rfl, .ext rfl, .ext rfl, trivial⟩

theorem page1ColC_cells (v : Variant) : OpCells v [] 0xC0 (page1ColC v) :=
  ⟨.imm8 rfl, .imm8 rfl, .imm8 rfl, .imm16 rfl, .imm8 rfl, .imm8 rfl, .imm8 rfl, .inh rfl, .imm8 rfl, .imm8 rfl,
    .imm8 rfl, .imm8 rfl, .imm16 rfl, .imm16 rfl, .imm16 rfl, .imm16 rfl, trivial⟩

theorem page1ColD_cells (v : Variant) : OpCells v [] 0xD0 (page1ColD v) :=
  ⟨.dir rfl, .dir rfl, .dir rfl, .dir rfl, .dir rfl, .dir rfl, .dir rfl, .inh rfl, .dir rfl, .dir rfl, .dir rfl,
    .dir rfl, .dir rfl, .dir rfl, .dir rfl, .dir rfl, trivial⟩

theorem page1ColE_cells (v : Variant) : OpCells v [] 0xE0 (page1ColE v) :=
  ⟨.idx rfl, .idx rfl, .idx rfl, .idx rfl, .idx rfl, .idx rfl, .idx rfl, .idx rfl, .idx rfl, .idx rfl, .idx rfl,
    .idx rfl, .idx rfl, .idx rfl, .idx rfl, .idx rfl, trivial⟩

theorem page1ColF_cells (v : Variant) : OpCells v [] 0xF0 (page1ColF v) :=
  ⟨.ext rfl, .ext rfl, .ext rfl, .ext rfl, .ext rfl, .ext rfl, .ext rfl, .ext rfl, .ext rfl, .ext rfl, .ext rfl,
    .ext rfl, .ext rfl, .ext rfl, .ext rfl, .ext rfl, trivial⟩

theorem takes_page1 (v : Variant) (op : Byte) :
    Takes (page1 v op) fun i used => i.entry v = (true, false, op :: used) := by
  refine OpCell.takes (lead := []) (OpColumns.mapCell ?_ op)
  exact ⟨page1Col0_cells v, page1Col1_cells v, page1Col2_cells v, page1Col3_cells v, page1Col4_cells v,
    page1Col5_cells v, page1Col6_cells v, page1Col7_cells v, page1Col8_cells v, page1Col9_cells v, page1ColA_cells v,
    page1ColB_cells v, page1ColC_cells v, page1ColD_cells v, page1ColE_cells v, page1ColF_cells v, trivial⟩

/-- Whatever the decoder answers is an instruction of the variant under its own name, and is written with the bytes
that the decoder took. -/
theorem takes_decode (v : Variant) : Takes (decode v) fun i used => i.entry v = (true, false, used) :=
  takes_byte.andThen fun op _ hop => hop ▸ takes_page1 v op

/-- Settles O1: by the operand layouts, decoding undoes encoding. -/
theorem decodeOfEncodeIsTheInstruction : Obligations.DecodeOfEncodeIsTheInstruction :=
  fun v i rest hwf hcore => decode_encode v i hwf hcore rest

/-- Settles O2: by the cells of the two opcode maps. -/
theorem decodedBytesAreTheEncoding : Obligations.DecodedBytesAreTheEncoding := by
  intro v bs i rest hdecode
  obtain ⟨used, hbs, hentry⟩ := takes_decode v bs i rest hdecode
  obtain ⟨hwf, hcore, hbytes⟩ := Instr.entry_eq_iff.mp hentry
  exact ⟨hwf, hcore, hbytes ▸ hbs⟩

end Sys2Proof

/-! PROOFS. The encoding family: words of the spec and the other names of words (R166, R171). -/

namespace Sys2Proof

/-- Settles O4: each row of bytes is the encoding of its instruction. -/
theorem wordsDecodeToTheirInstructions : Obligations.WordsDecodeToTheirInstructions :=
  ⟨decode_encode _ (.ldaa (.imm 0x12)) rfl rfl [], decode_encode _ (.ldd (.mem (.idx (.auto .x true 1)))) rfl rfl [],
    decode_encode _ (.sty (.idx (.indirect16 .x 0x1000))) rfl rfl [],
    decode_encode _ (.movb (.imm 0x55) (.idx (.const9 .x 0x1F0))) rfl rfl [],
    decode_encode _ (.exg .d .x false) rfl rfl [], decode_encode _ (.btas (.dir 0x40) 0x81) rfl rfl [],
    decode_encode _ (.brclr (.ext 0x2000) 0x0F 0xFB) rfl rfl [], decode_encode _ (.dbeq .x 0x1FD) rfl rfl [],
    decode_encode _ (.call (.direct (.ext 0x8000) 0x3C)) rfl rfl [],
    decode_encode _ (.call (.indirect (.indirectD .x))) rfl rfl [], decode_encode _ .incx rfl rfl [],
    decode_encode _ (.trap 0x42) rfl rfl []⟩

/-- The instruction that a word is given to where it has several names (R171). -/
def Instr.core : Instr → Instr
  | .sex r1 r2 => .tfr r1.toXfer r2.toXfer false
  | .tap => .tfr .a .ccr false
  | .tpa => .tfr .ccr .a false
  | .tsx => .tfr .sp .x false
  | .tsy => .tfr .sp .y false
  | .txs => .tfr .x .sp false
  | .tys => .tfr .y .sp false
  | .xgdx => .exg .d .x false
  | .xgdy => .exg .d .y false
  | .abx => .leax (.acc .b .x)
  | .aby => .leay (.acc .b .y)
  | .ins => .leas (.const5 .sp 1)
  | .des => .leas (.const5 .sp (-1))
  | .clc => .andcc 0xFE
  | .cli => .andcc 0xEF
  | .clv => .andcc 0xFD
  | .sec => .orcc 0x01
  | .sei => .orcc 0x10
  | .sev => .orcc 0x02
  | .lsl ea => .asl ea
  | .lsla => .asla
  | .lslb => .aslb
  | .lsld => .asld
  | .bhs rr => .bcc rr
  | .blo rr => .bcs rr
  | .lbhs qqrr => .lbcc qqrr
  | .lblo qqrr => .lbcs qqrr
  | i => i

theorem Instr.core_isAlias (i : Instr) : i.core.isAlias = false := by cases i <;> rfl

theorem Instr.encode_core (i : Instr) : encode i = encode i.core := by cases i <;> rfl

theorem Instr.wellFormed_core (v : Variant) (i : Instr) : i.wellFormed v = i.core.wellFormed v := by cases i <;> rfl

namespace Machine

/-- Without auto-modification an LEA writes the effective address and nothing else (R226 to R228). -/
theorem lea_of_not_auto {xb : Xb} (h : autoModified xb = none) (r : Reg16) (s : State) :
    lea r xb s = (xbAfter xb s).set16 r (xbAddress xb s) := by
  simp only [lea, leaValue, h, reduceCtorEq, false_and, if_false]

/-- The names of LEA words have no meaning of U9: their postbytes modify no register (R140). -/
theorem exec_core (i : Instr) (s : State) : exec i s = exec i.core s := by
  cases i with
  | abx => exact congrArg Host.Outcome.next (lea_of_not_auto (xb := .acc .b .x) rfl .x s).symm
  | aby => exact congrArg Host.Outcome.next (lea_of_not_auto (xb := .acc .b .y) rfl .y s).symm
  | ins =>
    have hone : (1 : BitVec 5).signExtend 16 = 1 := by decide
    have hlea : lea .sp (.const5 .sp 1) s = s.set16 .sp (s.sp + (1 : BitVec 5).signExtend 16) :=
      lea_of_not_auto rfl .sp s
    exact congrArg Host.Outcome.next (hone ▸ hlea).symm
  | des =>
    have hone : (-1 : BitVec 5).signExtend 16 = -1 := by decide
    have hlea : lea .sp (.const5 .sp (-1)) s = s.set16 .sp (s.sp + (-1 : BitVec 5).signExtend 16) :=
      lea_of_not_auto rfl .sp s
    rw [hone, ← BitVec.sub_eq_add_neg] at hlea
    exact congrArg Host.Outcome.next hlea.symm
  | _ => rfl

/-- Settles O3: the core instruction is the one that the word is given to. -/
theorem aliasesAreTheirInstruction : Obligations.AliasesAreTheirInstruction := fun i _ =>
  ⟨i.core, i.core_isAlias, i.encode_core, fun v => i.wellFormed_core v, exec_core i⟩

end Machine

end Sys2Proof

/-! PROOFS. The encoding family: taking an exception, and HCS12X-only instructions on HCS12 (R164, R643, R668). -/

namespace Sys2Proof.Machine

/-! ### The frame pushed (R668 to R670) -/

theorem State.push8_unchanged (s : State) (v : Byte) :
    Unchanged [.sp, .mem, .ppage, .gpage, .devices] s (s.push8 v) := by
  intro p hp
  cases p <;> simp_all [Part.same]

theorem State.push16_unchanged (s : State) (v : Word) :
    Unchanged [.sp, .mem, .ppage, .gpage, .devices] s (s.push16 v) := by
  intro p hp
  cases p <;> simp_all [Part.same]

theorem State.pushCcr_unchanged (s : State) : Unchanged [.sp, .mem, .ppage, .gpage, .devices] s s.pushCcr := by
  unfold State.pushCcr
  split
  · exact s.push8_unchanged _
  · exact s.push16_unchanged _

theorem State.pushFrame_unchanged (s : State) (rtn : Word) :
    Unchanged [.sp, .mem, .ppage, .gpage, .devices] s (s.pushFrame rtn) :=
  ((((s.push16_unchanged rtn).trans (State.push16_unchanged _ _)).trans (State.push16_unchanged _ _)).trans
    (State.push16_unchanged _ _)).trans (State.pushCcr_unchanged _)

/-- Four words, then the condition codes of the variant. -/
theorem State.pushFrame_stored {s : State} (hinv : s.Inv) (hclear : s.FrameClear) (rtn : Word) :
    Stored (frameStores s rtn) s (s.pushFrame rtn) := by
  have h1 := (framePart_zero hinv).push16 hclear (by omega) rtn
  have h2 := h1.push16 hclear (by omega) s.y
  have h3 := h2.push16 hclear (by omega) s.x
  have h4 := h3.push16 hclear (by omega) (wordOf s.b s.a)
  generalize hu : (((s.push16 rtn).push16 s.y).push16 s.x).push16 (wordOf s.b s.a) = u at h4
  have hrest := h4.pushes.rest
  have hparams : u.params = s.params := hrest .params (by simp)
  have hccr : u.ccr = s.ccr := hrest .ccr (by simp)
  have hccrh : u.ccrh = s.ccrh := hrest .ccrh (by simp)
  have hframe : s.pushFrame rtn = u.pushCcr := congrArg State.pushCcr hu
  rw [hframe, State.pushCcr, frameStores, hparams]
  cases hvariant : s.params.variant with
  | hcs12 =>
    have hpush := push8_pushes h4.inv.mem h4.inv.gmem u.ccr
    have hsp : u.sp - 1 = s.sp - 9 := by
      rw [h4.pushes.sp]
      bv_omega
    rw [hsp, State.place_congr hparams h4.ppage] at hpush
    rw [← hccr]
    exact h4.pushes.stored.append hpush.stored hparams (hrest .fresh (by simp))
  | hcs12x =>
    have h5 := h4.push16 hclear (by omega) u.ccrw
    rw [State.ccrw, hccr, hccrh] at h5 ⊢
    exact h5.pushes.stored

/-! ### Taking an exception (R668, R671) -/

theorem maskedCcr_sets (k : Byte) (isXirq : Bool) :
    Ccr.Sets ((.i, true) :: if isXirq then [(.x, true)] else []) k (maskedCcr k isXirq) := by
  cases isXirq with
  | false => exact sets_one k .i true
  | true =>
    refine ⟨by simp [maskedCcr], fun f hf => ?_⟩
    cases f <;> simp_all [maskedCcr]

theorem State.touchedVector_unchanged (s : State) (vec : Word) : Unchanged [.devices] s (s.touchedVector vec) :=
  (s.accessed_unchanged _).trans (State.accessed_unchanged _ _)

theorem State.vectored_unchanged (s : State) (target : Word) (isXirq : Bool) :
    Unchanged [.pc, .ccr, .runState, .refilled] s (s.vectored target isXirq) := by
  intro p hp
  cases p <;> simp_all [Part.same]

theorem State.vectored_sameMemory (s : State) (target : Word) (isXirq : Bool) :
    SameMemory s (s.vectored target isXirq) :=
  (s.vectored_unchanged target isXirq).sameMemory (by simp)

/-- The second half of an entry, over any state `u` that the first half leaves. -/
theorem entered_of_stacked {vec rtn : Word} {isXirq : Bool} {s u : State}
    (hstacked : Stacked rtn (s.touchedVector vec) u)
    (hrest : Unchanged [.sp, .mem, .ppage, .gpage, .devices] (s.touchedVector vec) u) :
    Entered vec isXirq rtn s (u.vectored (s.readVector vec) isXirq) where
  stacked := ⟨hstacked.sp, fun hclear => (hstacked.stored hclear).congr (u.vectored_sameMemory _ isXirq)⟩
  pc := rfl
  flags := by
    have hccr : u.ccr = s.ccr := (hrest .ccr (by simp)).trans (s.touchedVector_ccr vec)
    have hsets : Ccr.Sets ((.i, true) :: if isXirq then [(.x, true)] else []) s.ccr (maskedCcr u.ccr isXirq) := by
      rw [hccr]
      exact maskedCcr_sets s.ccr isXirq
    exact hsets
  running := rfl
  refilled := rfl
  rest :=
    (((s.touchedVector_unchanged vec).mono (by simp)).trans (hrest.mono (by simp))).trans
      ((u.vectored_unchanged _ isXirq).mono (by simp))

theorem State.pushFrame_stacked {s : State} (hinv : s.Inv) (rtn : Word) : Stacked rtn s (s.pushFrame rtn) :=
  ⟨s.pushFrame_sp rtn, fun hclear => State.pushFrame_stored hinv hclear rtn⟩

/-- An exception is entered as R668 has it, from every state that meets the invariant. -/
theorem State.enter_entered {s : State} (hinv : s.Inv) (vec : Word) (isXirq : Bool) (rtn : Word) :
    Entered vec isXirq rtn s (s.enter vec isXirq rtn) :=
  have hready : (s.touchedVector vec).Inv := (keeps_of_unchanged (s.touchedVector_unchanged vec) (by simp)).inv hinv
  entered_of_stacked (State.pushFrame_stacked hready rtn) (State.pushFrame_unchanged _ rtn)

/-! ### HCS12X-only instructions on HCS12 (R164, R172) -/

/-- Every HCS12X-only instruction has a meaning of its own on HCS12X alone. -/
theorem exec_of_hcs12xOnly {i : Instr} (h : i.hcs12xOnly = true) (s : State) :
    ∃ effect, exec i s = onHcs12x s effect := by
  cases i with
  | gldaa ea | gldab ea | gldd ea | glds ea | gldx ea | gldy ea | gstaa ea | gstab ea | gstd ea | gsts ea | gstx ea
  | gsty ea | clrw ea | incw ea | decw ea | negw ea | tstw ea | comw ea | aslw ea | asrw ea | lsrw ea | rolw ea
  | rorw ea | btas ea mm => exact ⟨_, rfl⟩
  | addx src | addy src | aded src | adex src | adey src | sbed src | sbex src | sbey src | subx src | suby src
  | cped src | cpes src | cpex src | cpey src | bitx src | bity src | andx src | andy src | orx src | ory src
  | eorx src | eory src => exact ⟨_, rfl⟩
  | clrx | clry | pshcw | pulcw | incx | incy | decx | decy | negx | negy | tstx | tsty | comx | comy | aslx | asly
  | asrx | asry | lsrx | lsry | rolx | roly | rorx | rory => exact ⟨_, rfl⟩
  | _ => cases h

theorem onHcs12x_of_hcs12 {s : State} (h : s.params.variant = .hcs12) (effect : State) :
    onHcs12x s effect = .next s.trap := by
  rw [onHcs12x, h]

/-- Settles O9: on HCS12 such a term runs the trap, which enters by the vector $FFF8. -/
theorem hcs12xInstructionsTrapOnHcs12 : Obligations.Hcs12xInstructionsTrapOnHcs12 := by
  intro i s hinv honly hvariant
  obtain ⟨effect, hexec⟩ := exec_of_hcs12xOnly honly s
  exact ⟨s.trap, hexec.trans (onHcs12x_of_hcs12 hvariant effect), State.enter_entered hinv trapVector false s.pc⟩

end Sys2Proof.Machine

/-! PROOFS. The encoding family: the effective address of every operand form (R125 to R137). -/

namespace Sys2Proof.Machine

/-! ### Sums of an address and an offset, modulo 2^16 -/

theorem add_ofInt (x : Word) (k : Int) : x + BitVec.ofInt 16 k = BitVec.ofInt 16 (x.toNat + k) := by
  rw [BitVec.ofInt_add, BitVec.ofInt_natCast, BitVec.ofNat_toNat, BitVec.setWidth_eq]

theorem add_ofNat (x : Word) (n : Nat) : x + BitVec.ofNat 16 n = BitVec.ofNat 16 (x.toNat + n) := by
  rw [BitVec.ofNat_add, BitVec.ofNat_toNat, BitVec.setWidth_eq]

/-- A signed offset is extended by its sign (R7, R131, R133). -/
theorem add_signExtend {w : Nat} (x : Word) (n : BitVec w) :
    x + n.signExtend 16 = BitVec.ofInt 16 (x.toNat + n.toInt) :=
  add_ofInt x n.toInt

theorem add_signed (x n : Word) : x + n = BitVec.ofInt 16 (x.toNat + n.toInt) := by
  rw [← add_ofInt, BitVec.ofInt_toInt]

theorem zext8_eq_ofNat (b : Byte) : zext8 b = BitVec.ofNat 16 b.toNat := (BitVec.ofNat_toNat 16 b).symm

theorem wordOf_eq_ofNat (hi lo : Byte) : wordOf hi lo = BitVec.ofNat 16 (256 * hi.toNat + lo.toNat) := by
  have hlo := lo.isLt
  apply BitVec.eq_of_toNat_eq
  rw [wordOf, BitVec.toNat_append, ← Nat.shiftLeft_add_eq_or_of_lt hlo, Nat.shiftLeft_eq, BitVec.toNat_ofNat,
    Nat.mod_eq_of_lt (by omega)]
  omega

theorem add_d (x : Word) (s : State) : x + s.d = BitVec.ofNat 16 (x.toNat + 256 * s.a.toNat + s.b.toNat) := by
  rw [State.d, wordOf_eq_ofNat, add_ofNat, Nat.add_assoc]

/-- The step of an auto form, signed (R132). -/
theorem autoStep_eq_ofInt : ∀ k : BitVec 4,
    autoStep k = BitVec.ofInt 16 (if k.toNat < 8 then (k.toNat : Int) + 1 else (k.toNat : Int) - 16) := by
  decide

/-! ### What an operand form leaves -/

@[simp] theorem State.get16_set16_same (s : State) (r : Reg16) (v : Word) : (s.set16 r v).get16 r = v := by
  cases r with
  | d => exact wordOf_high_low v
  | x | y | sp => rfl

theorem State.set16_unchanged (s : State) (r : Reg16) (v : Word) : Unchanged r.parts s (s.set16 r v) := by
  intro p hp
  cases r <;> cases p <;> simp_all [Part.same, Reg16.parts]

theorem xbAfter_of_not_auto {xb : Xb} (h : autoModified xb = none) (s : State) :
    xbAfter xb s = if xb.isIndirect then s.touched16 (indexedAddress xb s) else s := by
  cases xb with
  | auto r post k => cases h
  | const5 | const9 | const16 | indirect16 | acc | indirectD => rfl

/-- Settles O24, operand form by operand form. -/
theorem effectiveAddresses : Obligations.EffectiveAddresses := by
  intro s
  refine ⟨fun dd => ?dir, fun _ => rfl, fun base n => ?const5, fun base n => ?const9, fun base n => ?const16,
    fun base n => ?indirect16, fun base => ?accA, fun base => ?accB, fun base => ?accD, fun base => ?indirectD,
    ⟨rfl, rfl, rfl, rfl⟩, fun r k => ?auto, fun _ => rfl, fun _ => rfl, fun xb h => xbAfter_of_not_auto h s⟩
  case dir => exact BitVec.toNat_setWidth_of_le (by omega)
  case const5 | const9 => exact add_signExtend _ n
  case const16 => exact add_signed _ n
  case indirect16 => exact congrArg s.read16 (add_signed _ n)
  case accA | accB => exact (congrArg _ (zext8_eq_ofNat _)).trans (add_ofNat _ _)
  case accD => exact add_d _ s
  case indirectD => exact congrArg s.read16 (add_d _ s)
  case auto =>
    have hnew := (congrArg (s.get16 (autoReg r) + ·) (autoStep_eq_ofInt k)).trans (add_ofInt _ _)
    exact ⟨hnew, rfl, fun _ => ⟨(s.get16_set16_same _ _).trans hnew, s.set16_unchanged _ _⟩⟩

end Sys2Proof.Machine

/-! PROOFS. The load and store family: what a load, a store, a clear and an effective address leave (R200 to R234). -/

namespace Sys2Proof.Machine

/-! ### Instructions of HCS12X -/

theorem onHcs12x_of_hcs12x {s : State} (h : s.params.variant = .hcs12x) (effect : State) :
    onHcs12x s effect = .next effect := by
  rw [onHcs12x, h]

/-- An instruction of HCS12X completes there with its effect. -/
theorem runs_of_onHcs12x {i : Instr} {s effect : State} {post : State → Prop} (hvariant : s.params.variant = .hcs12x)
    (hexec : exec i s = onHcs12x s effect) (h : post effect) : Runs i s post :=
  ⟨effect, hexec.trans (onHcs12x_of_hcs12x hvariant effect), h⟩

/-! ### The templates of loads (R200) -/

theorem load8_gives (r : Reg8) (v : Byte) (u : State) : Gives8 r v (logicFlags v) u (load8 r v u) :=
  gives8_of (logicCcr_sets u.ccr v)

theorem load16_gives (r : Reg16) (v : Word) (u : State) : Gives16 r v (logicFlags v) u (load16 r v u) :=
  gives16_of (logicCcr_sets u.ccr v)

/-- Settles O26: each load is the load template over what its operand leaves. -/
theorem loadsTakeTheOperand : Obligations.LoadsTakeTheOperand := fun _ =>
  ⟨fun _ => ⟨_, rfl, load8_gives .a _ _⟩, fun _ => ⟨_, rfl, load8_gives .b _ _⟩,
    fun _ => ⟨_, rfl, load16_gives .d _ _⟩, fun _ => ⟨_, rfl, load16_gives .sp _ _⟩,
    fun _ => ⟨_, rfl, load16_gives .x _ _⟩, fun _ => ⟨_, rfl, load16_gives .y _ _⟩⟩

/-! ### What a 16-bit store writes (R140, U9) -/

theorem State.get16_set16_other (s : State) {r q : Reg16} (v : Word) (h : r ≠ q) :
    (s.set16 r v).get16 q = s.get16 q := by
  cases r <;> cases q <;> first | rfl | exact absurd rfl h

theorem State.get16_touched16 (s : State) (addr : Word) (r : Reg16) : (s.touched16 addr).get16 r = s.get16 r := by
  cases r with
  | d => simp [State.get16, State.d]
  | x => exact s.touched16_x addr
  | y => exact s.touched16_y addr
  | sp => exact s.touched16_sp addr

/-- A postbyte leaves every register but the one it auto-modifies (R132). -/
theorem xbAfter_get16 {xb : Xb} {r : Reg16} (h : autoModified xb ≠ some r) (s : State) :
    (xbAfter xb s).get16 r = s.get16 r := by
  cases xb with
  | auto i post k => exact s.get16_set16_other _ fun e => h (congrArg some e)
  | indirect16 base n | indirectD base => exact s.get16_touched16 _ r
  | const5 | const9 | const16 | acc => rfl

theorem eaAfter_get16 {ea : Ea} {r : Reg16} (h : eaModified ea ≠ some r) (s : State) :
    (eaAfter ea s).get16 r = s.get16 r := by
  cases ea with
  | dir | ext => rfl
  | idx xb => exact xbAfter_get16 h s

theorem storedValue_storable (r : Reg16) (ea : Ea) (s : State) : StorableValue r ea s (storedValue r ea s) := by
  unfold storedValue
  split
  next hold => exact ⟨.inl rfl, fun hne => absurd hold.1 hne⟩
  next => exact ⟨.inr rfl, fun hne => eaAfter_get16 hne s⟩

/-! ### The templates of stores (R200, R201) -/

/-- Where a global access goes is not moved by an operand (R84). -/
theorem eaAfter_globalPlaceAt (ea : Ea) (s : State) (addr : Word) (k : Nat) :
    (eaAfter ea s).globalPlaceAt addr k = s.globalPlaceAt addr k :=
  State.globalPlaceAt_congr (eaAfter_params ea s) (eaAfter_ppage ea s) (eaAfter_gpage ea s) addr k

section Stores

variable {s : State} (hinv : s.Inv) (ea : Ea)

include hinv

theorem eaAfter_inv : (eaAfter ea s).Inv := (keeps_eaAfter ea s).inv hinv

theorem write8_eaAfter_gives {v k : Byte} {flags : List (Flag × Bool)} (h : Ccr.Sets flags s.ccr k) :
    GivesByte (eaAddress ea s) v flags (eaAfter ea s) (((eaAfter ea s).write8 (eaAddress ea s) v).setCcr k) :=
  have hready := eaAfter_inv hinv ea
  givesByte_of hready.mem hready.gmem ((eaAfter_ccr ea s).symm ▸ h)

theorem write16_eaAfter_gives {v : Word} {k : Byte} {flags : List (Flag × Bool)} (h : Ccr.Sets flags s.ccr k) :
    GivesWord (eaAddress ea s) v flags (eaAfter ea s) (((eaAfter ea s).write16 (eaAddress ea s) v).setCcr k) :=
  have hready := eaAfter_inv hinv ea
  givesWord_of hready.mem hready.gmem ((eaAfter_ccr ea s).symm ▸ h)

theorem store8_gives (r : Reg8) :
    GivesByte (eaAddress ea s) (s.get8 r) (logicFlags (s.get8 r)) (eaAfter ea s) (store8 r ea s) :=
  write8_eaAfter_gives hinv ea (logicCcr_sets _ _)

theorem store16_gives (r : Reg16) : ∃ v, StorableValue r ea s v ∧
    GivesWord (eaAddress ea s) v (logicFlags v) (eaAfter ea s) (store16 r ea s) :=
  ⟨_, storedValue_storable r ea s, write16_eaAfter_gives hinv ea (logicCcr_sets _ _)⟩

theorem globalStore8_gives (r : Reg8) :
    GivesStores [(s.globalPlaceAt (eaAddress ea s) 0, s.get8 r)] (logicFlags (s.get8 r)) (eaAfter ea s)
      (globalStore8 r ea s) := by
  have hready := eaAfter_inv hinv ea
  rw [← eaAfter_globalPlaceAt ea s]
  exact givesGlobalByte_of hready.mem hready.gmem ((eaAfter_ccr ea s).symm ▸ logicCcr_sets _ _)

theorem globalStore16_gives (r : Reg16) : ∃ v, StorableValue r ea s v ∧
    GivesStores (globalWordStores s (eaAddress ea s) v) (logicFlags v) (eaAfter ea s) (globalStore16 r ea s) := by
  have hready := eaAfter_inv hinv ea
  refine ⟨_, storedValue_storable r ea s, ?_⟩
  rw [globalWordStores, ← eaAfter_globalPlaceAt ea s, ← eaAfter_globalPlaceAt ea s]
  exact givesGlobalWord_of hready.mem hready.gmem ((eaAfter_ccr ea s).symm ▸ logicCcr_sets _ _)

end Stores

/-- Settles O27: each store is the store template at its effective address. -/
theorem storesWriteTheRegister : Obligations.StoresWriteTheRegister := fun _ hinv =>
  ⟨fun ea => ⟨_, rfl, store8_gives hinv ea .a⟩, fun ea => ⟨_, rfl, store8_gives hinv ea .b⟩,
    fun ea => ⟨_, rfl, store16_gives hinv ea .d⟩, fun ea => ⟨_, rfl, store16_gives hinv ea .sp⟩,
    fun ea => ⟨_, rfl, store16_gives hinv ea .x⟩, fun ea => ⟨_, rfl, store16_gives hinv ea .y⟩⟩

/-- Settles O28: the load template over a global operand, and the store template into global memory. -/
theorem globalLoadsAndStores : Obligations.GlobalLoadsAndStores := fun _ hinv hvariant =>
  ⟨fun _ => runs_of_onHcs12x hvariant rfl (load8_gives .a _ _),
    fun _ => runs_of_onHcs12x hvariant rfl (load8_gives .b _ _),
    fun _ => runs_of_onHcs12x hvariant rfl (load16_gives .d _ _),
    fun _ => runs_of_onHcs12x hvariant rfl (load16_gives .sp _ _),
    fun _ => runs_of_onHcs12x hvariant rfl (load16_gives .x _ _),
    fun _ => runs_of_onHcs12x hvariant rfl (load16_gives .y _ _),
    fun ea => runs_of_onHcs12x hvariant rfl (globalStore8_gives hinv ea .a),
    fun ea => runs_of_onHcs12x hvariant rfl (globalStore8_gives hinv ea .b),
    fun ea => runs_of_onHcs12x hvariant rfl (globalStore16_gives hinv ea .d),
    fun ea => runs_of_onHcs12x hvariant rfl (globalStore16_gives hinv ea .sp),
    fun ea => runs_of_onHcs12x hvariant rfl (globalStore16_gives hinv ea .x),
    fun ea => runs_of_onHcs12x hvariant rfl (globalStore16_gives hinv ea .y)⟩

/-! ### Effective addresses loaded (R226 to R228) -/

/-- A 16-bit register written with no flag. -/
theorem gives16_plain (r : Reg16) (v : Word) (u : State) : Gives16 r v [] u (u.set16 r v) := by
  have hccr : (u.set16 r v).setCcr u.ccr = u.set16 r v := by cases r <;> rfl
  exact hccr ▸ gives16_of (sets_nil u.ccr)

theorem leaValue_cases (r : Reg16) (xb : Xb) (s : State) :
    (leaValue r xb s = xbAddress xb s ∨ leaValue r xb s = (xbAfter xb s).get16 r) ∧
      (autoModified xb ≠ some r → leaValue r xb s = xbAddress xb s) := by
  unfold leaValue
  split
  next hbase => exact ⟨.inr rfl, fun hne => absurd hbase.1 hne⟩
  next => exact ⟨.inl rfl, fun _ => rfl⟩

theorem lea_gives (r : Reg16) (xb : Xb) (s : State) : ∃ v,
    (v = xbAddress xb s ∨ v = (xbAfter xb s).get16 r) ∧ (autoModified xb ≠ some r → v = xbAddress xb s) ∧
      Gives16 r v [] (xbAfter xb s) (lea r xb s) :=
  have ⟨hvalue, hother⟩ := leaValue_cases r xb s
  ⟨_, hvalue, hother, gives16_plain r _ _⟩

/-- The accumulator offset of ABX and ABY, unsigned (R311, R312). -/
theorem add_zext8 (x : Word) (b : Byte) : x + zext8 b = BitVec.ofNat 16 (x.toNat + b.toNat) := by
  rw [zext8_eq_ofNat, add_ofNat]

/-- Settles O29: the LEA template, and a register written with a sum. -/
theorem effectiveAddressLoads : Obligations.EffectiveAddressLoads := by
  intro s
  refine ⟨fun xb => ⟨_, rfl, lea_gives .sp xb s⟩, fun xb => ⟨_, rfl, lea_gives .x xb s⟩,
    fun xb => ⟨_, rfl, lea_gives .y xb s⟩, ⟨_, rfl, ?abx⟩, ⟨_, rfl, ?aby⟩, ⟨_, rfl, ?ins⟩, ⟨_, rfl, ?des⟩⟩
  case abx | aby => exact add_zext8 _ s.b ▸ gives16_plain _ _ s
  case ins => exact plus_one16 s.sp ▸ gives16_plain .sp _ s
  case des => exact minus_one16 s.sp ▸ gives16_plain .sp _ s

/-- Settles O30: zero written, with the flags of `clearCcr`. -/
theorem clearsLeaveZero : Obligations.ClearsLeaveZero := by
  intro s hinv
  have hflags := clearCcr_sets s.ccr
  refine ⟨fun ea => ⟨_, rfl, write8_eaAfter_gives hinv ea hflags⟩, ⟨_, rfl, gives8_of hflags⟩,
    ⟨_, rfl, gives8_of hflags⟩, fun hvariant => ⟨fun ea => ?clrw, ?clrx, ?clry⟩⟩
  case clrw => exact runs_of_onHcs12x hvariant rfl (write16_eaAfter_gives hinv ea hflags)
  case clrx | clry => exact runs_of_onHcs12x hvariant rfl (gives16_of hflags)

end Sys2Proof.Machine

/-! PROOFS. The load and store family: pushes and pulls (R235 to R248). -/

namespace Sys2Proof.Machine

/-- Settles O31: a push of a byte or a word, with the register as it is. -/
theorem pushesStoreBelowTheStackPointer : Obligations.PushesStoreBelowTheStackPointer := fun s hinv =>
  have byte := push8_pushes hinv.mem hinv.gmem
  have word := push16_pushes hinv.mem hinv.gmem
  ⟨⟨_, rfl, byte s.a⟩, ⟨_, rfl, byte s.b⟩, ⟨_, rfl, byte s.ccr⟩, ⟨_, rfl, word s.d⟩, ⟨_, rfl, word s.x⟩,
    ⟨_, rfl, word s.y⟩, fun hvariant => runs_of_onHcs12x hvariant rfl (word s.ccrw)⟩

/-! ### What a pull leaves besides the register it loads (R12) -/

theorem State.popped_unchanged (s : State) (n : Word) : Unchanged [.sp] s (s.popped n) := by
  intro p hp
  cases p with
  | sp => simp at hp
  | _ => rfl

theorem State.set8_unchanged (s : State) (r : Reg8) (v : Byte) : Unchanged r.parts s (s.set8 r v) := by
  intro p hp
  cases r <;> cases p <;> simp_all [Part.same, Reg8.parts]

theorem State.writeCcr_unchanged (s : State) (v : Byte) : Unchanged [.ccr] s (s.writeCcr v) := by
  intro p hp
  cases p with
  | ccr => simp at hp
  | _ => rfl

theorem State.writeCcrw_unchanged (s : State) (v : Word) : Unchanged [.ccr, .ccrh] s (s.writeCcrw v) := by
  intro p hp
  cases p with
  | ccr | ccrh => simp at hp
  | _ => rfl

/-- What a register pulled is no part of: SP, and what memory is read through. -/
def pullKeeps : List Part := [.sp, .mem, .gmem, .devices, .ppage, .gpage, .fresh, .params]

/-- SP raised by `n`, then a change of `parts` alone. -/
theorem popped_rest {parts : List Part} {u t : State} {n : Word} (h : Unchanged parts (u.popped n) t)
    (hparts : ∀ p ∈ pullKeeps, p ∉ parts) :
    t.sp = u.sp + n ∧ Unchanged (.sp :: parts) u t ∧ ReadsAsBefore u t := by
  have hrest : Unchanged (.sp :: parts) u t := ((u.popped_unchanged n).mono (by simp)).trans (h.mono (by simp))
  have hmem : SameMemory u t := hrest.sameMemory fun p hp hmem => by
    rcases List.mem_cons.1 hmem with rfl | hpart
    · simp at hp
    · exact hparts p (List.mem_cons_of_mem Part.sp hp) hpart
  exact ⟨h .sp (hparts .sp (by decide)), hrest, hmem.readsAsBefore⟩

theorem pulled8_rest {parts : List Part} {s t : State} (h : Unchanged parts s.pulled8 t)
    (hparts : ∀ p ∈ pullKeeps, p ∉ parts) :
    t.sp = s.sp + 1 ∧ Unchanged (.sp :: parts) (s.touched8 s.sp) t ∧ ReadsAsBefore (s.touched8 s.sp) t := by
  have hrest := popped_rest h hparts
  rwa [s.touched8_sp] at hrest

theorem pulled16_rest {parts : List Part} {s t : State} (h : Unchanged parts s.pulled16 t)
    (hparts : ∀ p ∈ pullKeeps, p ∉ parts) :
    t.sp = s.sp + 2 ∧ Unchanged (.sp :: parts) (s.touched16 s.sp) t ∧ ReadsAsBefore (s.touched16 s.sp) t := by
  have hrest := popped_rest h hparts
  rwa [s.touched16_sp] at hrest

theorem pulled8_set8_rest (s : State) (r : Reg8) (v : Byte) :
    (s.pulled8.set8 r v).sp = s.sp + 1 ∧ Unchanged (.sp :: r.parts) (s.touched8 s.sp) (s.pulled8.set8 r v) ∧
      ReadsAsBefore (s.touched8 s.sp) (s.pulled8.set8 r v) :=
  pulled8_rest (s.pulled8.set8_unchanged r v) (by cases r <;> decide)

/-- The register is not SP, which a pull raises. -/
theorem pulled16_set16_rest (s : State) {r : Reg16} (hr : r ≠ .sp) (v : Word) :
    (s.pulled16.set16 r v).sp = s.sp + 2 ∧ Unchanged (.sp :: r.parts) (s.touched16 s.sp) (s.pulled16.set16 r v) ∧
      ReadsAsBefore (s.touched16 s.sp) (s.pulled16.set16 r v) := by
  refine pulled16_rest (s.pulled16.set16_unchanged r v) ?_
  cases r with
  | d | x | y => decide
  | sp => exact absurd rfl hr

/-! ### The condition codes pulled (R17) -/

theorem ccrLoaded_of {v : Byte} {s t : State} (h : t.ccr = writtenCcr s.ccr v) : CcrLoaded v s t := by
  intro f
  rw [State.flag, h]
  exact flagOf_writtenCcr s.ccr v f

/-- CCRH takes the bits of its write mask (R17, D6). -/
theorem writtenCcrh_getLsbD (wmask old v : Byte) {k : Nat} (hk : k < 8) :
    (writtenCcrh wmask old v).getLsbD k = if wmask.getLsbD k then v.getLsbD k else old.getLsbD k := by
  simp only [writtenCcrh, BitVec.getLsbD_or, BitVec.getLsbD_and, BitVec.getLsbD_not, hk, decide_true, Bool.true_and]
  cases wmask.getLsbD k <;> simp

theorem ccrhLoaded_of {v : Byte} {s t : State} (h : t.ccrh = writtenCcrh s.params.ccrhWmask s.ccrh v) :
    CcrhLoaded v s t := by
  intro k hk
  rw [h]
  exact writtenCcrh_getLsbD _ _ _ hk

theorem State.pulled8_writeCcr_loaded (s : State) : CcrLoaded (s.read8 s.sp) s (s.pulled8.writeCcr s.top8) :=
  ccrLoaded_of (by simp [State.top8])

theorem State.pulled16_writeCcrw_loaded (s : State) :
    CcrhLoaded (s.read8 s.sp) s (s.pulled16.writeCcrw s.top16) ∧
      CcrLoaded (s.read8 (s.sp + 1)) s (s.pulled16.writeCcrw s.top16) :=
  ⟨ccrhLoaded_of (by simp [State.top16]), ccrLoaded_of (by simp [State.top16])⟩

/-- Settles O32: the read and SP raised, then the register written. -/
theorem pullsTakeFromTheStackPointer : Obligations.PullsTakeFromTheStackPointer := by
  intro s
  refine ⟨⟨_, rfl, rfl, ?pula⟩, ⟨_, rfl, rfl, ?pulb⟩, ⟨_, rfl, s.pulled8_writeCcr_loaded, ?pulc⟩,
    ⟨_, rfl, s.read16_high s.sp, s.read16_low s.sp, ?puld⟩, ⟨_, rfl, rfl, ?pulx⟩, ⟨_, rfl, rfl, ?puly⟩,
    fun hvariant => ?pulcw⟩
  case pula => exact pulled8_set8_rest s .a _
  case pulb => exact pulled8_set8_rest s .b _
  case pulc => exact pulled8_rest (State.writeCcr_unchanged _ _) (by decide)
  case puld => exact pulled16_set16_rest s (r := .d) (by decide) _
  case pulx => exact pulled16_set16_rest s (r := .x) (by decide) _
  case puly => exact pulled16_set16_rest s (r := .y) (by decide) _
  case pulcw =>
    obtain ⟨hhigh, hlow⟩ := s.pulled16_writeCcrw_loaded
    exact runs_of_onHcs12x hvariant rfl
      ⟨hhigh, hlow, pulled16_rest (State.writeCcrw_unchanged _ _) (by decide)⟩

end Sys2Proof.Machine

/-! PROOFS. The transfer family: the places of TFR and EXG are the registers of the tables (R266 to R269). -/

namespace Sys2Proof

/-! ### Bytes and words as numbers -/

theorem wordOf_toNat (hi lo : Byte) : (wordOf hi lo).toNat = 256 * hi.toNat + lo.toNat := by
  have hhi := hi.isLt
  have hlo := lo.isLt
  rw [Machine.wordOf_eq_ofNat, BitVec.toNat_ofNat, Nat.mod_eq_of_lt (by omega)]

theorem Word.high_toNat (w : Word) : w.high.toNat = w.toNat / 256 := by
  have hw := w.isLt
  rw [Word.high, BitVec.extractLsb'_toNat, Nat.shiftRight_eq_div_pow]
  omega

theorem Word.low_toNat (w : Word) : w.low.toNat = w.toNat % 256 := BitVec.toNat_setWidth 8 w

theorem Word.ofNat_low (w : Word) : BitVec.ofNat 8 w.toNat = w.low := BitVec.ofNat_toNat 8 w

theorem Word.ofNat_high (w : Word) : BitVec.ofNat 8 (w.toNat / 256) = w.high := by
  rw [← w.high_toNat, BitVec.ofNat_toNat, BitVec.setWidth_eq]

theorem Byte.ofNat_toNat (b : Byte) : BitVec.ofNat 8 b.toNat = b := by
  rw [BitVec.ofNat_toNat, BitVec.setWidth_eq]

/-- `sex:` of a byte (R266). -/
theorem sext8_toNat (b : Byte) : (sext8 b).toNat = if b.toNat < 128 then b.toNat else 0xFF00 + b.toNat := by
  have hb := b.isLt
  rw [sext8, BitVec.toNat_signExtend, BitVec.toNat_setWidth, BitVec.msb_eq_decide]
  simp only [decide_eq_true_eq]
  split <;> split <;> omega

theorem zext8_toNat (b : Byte) : (zext8 b).toNat = b.toNat := by
  have hb := b.isLt
  rw [zext8, BitVec.toNat_setWidth, Nat.mod_eq_of_lt (by omega)]

namespace Machine

/-- `sex:D` (R267). -/
theorem signWord_toNat (w : Word) : (signWord w).toNat = if w.toNat < 0x8000 then 0 else 0xFFFF := by
  rw [signWord, BitVec.msb_eq_decide]
  by_cases h : w.toNat < 0x8000
  · simp [h, Nat.not_le.2 h]
  · simp [h, Nat.not_lt.1 h]

/-! ### Places as registers of the tables -/

/-- The name that the tables have for a byte-wide place. -/
def ByteLoc.reg : ByteLoc → CellReg
  | .a => .a
  | .b => .b
  | .ccr => .ccr
  | .ccrh => .ccrh
  | .xHigh => .xHigh
  | .xLow => .xLow
  | .yHigh => .yHigh
  | .yLow => .yLow
  | .spHigh => .spHigh
  | .spLow => .spLow
  | .tmp2High => .tmp2High
  | .tmp2Low => .tmp2Low
  | .tmp3High => .tmp3High
  | .tmp3Low => .tmp3Low

/-- The name that the tables have for a word-wide place. -/
def WordLoc.reg : WordLoc → CellReg
  | .ccrw => .ccrw
  | .d => .d
  | .x => .x
  | .y => .y
  | .sp => .sp
  | .tmp1 => .tmp1
  | .tmp2 => .tmp2
  | .tmp3 => .tmp3

theorem ByteLoc.reg_value (l : ByteLoc) (s : State) : l.reg.value s = (s.getByteLoc l).toNat := by
  cases l with
  | a | b | ccr | ccrh => rfl
  | xHigh | yHigh | spHigh | tmp2High | tmp3High => exact (Word.high_toNat _).symm
  | xLow | yLow | spLow | tmp2Low | tmp3Low => exact (Word.low_toNat _).symm

theorem WordLoc.reg_value (l : WordLoc) (s : State) : l.reg.value s = (s.getWordLoc l).toNat := by
  cases l with
  | ccrw | d => exact (wordOf_toNat _ _).symm
  | x | y | sp | tmp1 | tmp2 | tmp3 => rfl

/-! ### One register written -/

/-- A register of the tables takes a value, and nothing else changes. -/
structure Writes (r : CellReg) (v : Nat) (s t : State) : Prop where
  takes : r.Takes v s t
  rest : Unchanged r.parts s t

theorem State.writeCcrh_unchanged (s : State) (v : Byte) : Unchanged [.ccrh] s (s.writeCcrh v) := by
  intro p hp
  cases p with
  | ccrh => simp at hp
  | _ => rfl

theorem State.setWordLoc_unchanged (s : State) (l : WordLoc) (v : Word) :
    Unchanged l.reg.parts s (s.setWordLoc l v) := by
  cases l with
  | ccrw => exact s.writeCcrw_unchanged v
  | d => exact s.set16_unchanged .d v
  | x => exact s.set16_unchanged .x v
  | y => exact s.set16_unchanged .y v
  | sp => exact s.set16_unchanged .sp v
  | tmp1 | tmp2 | tmp3 =>
    intro p hp
    cases p <;> simp_all [Part.same, State.setWordLoc, WordLoc.reg, CellReg.parts]

/-- A half of a register written is that register written. -/
theorem State.setByteLoc_unchanged (s : State) (l : ByteLoc) (v : Byte) :
    Unchanged l.reg.parts s (s.setByteLoc l v) := by
  cases l with
  | a => exact s.set8_unchanged .a v
  | b => exact s.set8_unchanged .b v
  | ccr => exact s.writeCcr_unchanged v
  | ccrh => exact s.writeCcrh_unchanged v
  | xHigh | xLow => exact s.setWordLoc_unchanged .x _
  | yHigh | yLow => exact s.setWordLoc_unchanged .y _
  | spHigh | spLow => exact s.setWordLoc_unchanged .sp _
  | tmp2High | tmp2Low => exact s.setWordLoc_unchanged .tmp2 _
  | tmp3High | tmp3Low => exact s.setWordLoc_unchanged .tmp3 _

/-- The high byte of a word replaced. -/
theorem wordOf_low_toNat (v : Byte) (w : Word) : (wordOf v w.low).toNat = 256 * v.toNat + w.toNat % 256 := by
  rw [wordOf_toNat, w.low_toNat]

/-- The low byte of a word replaced. -/
theorem wordOf_high_toNat (w : Word) (v : Byte) : (wordOf w.high v).toNat = 256 * (w.toNat / 256) + v.toNat := by
  rw [wordOf_toNat, w.high_toNat]

theorem State.setByteLoc_takes (s : State) (l : ByteLoc) (v : Byte) :
    l.reg.Takes v.toNat s (s.setByteLoc l v) := by
  cases l with
  | a | b => rfl
  | ccr => exact ccrLoaded_of (congrArg (writtenCcr s.ccr) (Byte.ofNat_toNat v).symm)
  | ccrh => exact ccrhLoaded_of (congrArg (writtenCcrh _ s.ccrh) (Byte.ofNat_toNat v).symm)
  | xHigh | yHigh | spHigh | tmp2High | tmp3High => exact wordOf_low_toNat v _
  | xLow | yLow | spLow | tmp2Low | tmp3Low => exact wordOf_high_toNat _ v

theorem State.setWordLoc_takes (s : State) (l : WordLoc) (v : Word) :
    l.reg.Takes v.toNat s (s.setWordLoc l v) := by
  cases l with
  | ccrw => exact ⟨ccrhLoaded_of (congrArg (writtenCcrh _ s.ccrh) v.ofNat_high.symm),
      ccrLoaded_of (congrArg (writtenCcr s.ccr) v.ofNat_low.symm)⟩
  | d => exact (wordOf_toNat v.high v.low).symm.trans (congrArg BitVec.toNat (wordOf_high_low v))
  | x | y | sp | tmp1 | tmp2 | tmp3 => rfl

theorem State.setByteLoc_writes (s : State) (l : ByteLoc) (v : Byte) :
    Writes l.reg v.toNat s (s.setByteLoc l v) :=
  ⟨s.setByteLoc_takes l v, s.setByteLoc_unchanged l v⟩

theorem State.setWordLoc_writes (s : State) (l : WordLoc) (v : Word) :
    Writes l.reg v.toNat s (s.setWordLoc l v) :=
  ⟨s.setWordLoc_takes l v, s.setWordLoc_unchanged l v⟩

/-! ### Cells of one and of two registers -/

/-- Two registers of the tables lie in different pieces of state. -/
abbrev CellReg.Apart (r q : CellReg) : Prop := ∀ p ∈ r.parts, p ∉ q.parts

/-- What a register takes depends on nothing but the pieces of state it lies in, and the write mask of CCRH. -/
theorem CellReg.Takes.congr {r : CellReg} {v : Nat} {s s' t t' : State} (h : r.Takes v s t)
    (hparams : s'.params = s.params) (hbefore : ∀ p ∈ r.parts, p.same s' s)
    (hafter : ∀ p ∈ r.parts, p.same t t') : r.Takes v s' t' := by
  cases r <;>
    simp_all [CellReg.Takes, CellReg.value, CellReg.parts, Part.same, CcrLoaded, CcrhLoaded, State.flag]

theorem CellReg.params_not_mem_parts (r : CellReg) : Part.params ∉ r.parts := by cases r <;> decide

theorem CellDone.of_writes {r : CellReg} {c : CellValue} {v : Nat} {s t : State} (h : Writes r v s t)
    (hv : c.value s = v) : CellDone [(c, r)] s t where
  taken p hp := by
    rw [List.mem_singleton.1 hp, hv]
    exact h.takes
  rest := h.rest.mono (by simp)

/-- Two registers written one after the other, with values from before either. -/
theorem CellDone.of_writes_writes {r q : CellReg} {c d : CellValue} {v w : Nat} {s t u : State}
    (hr : Writes r v s t) (hq : Writes q w t u) (hc : c.value s = v) (hd : d.value s = w) (hapart : r.Apart q) :
    CellDone [(c, r), (d, q)] s u where
  taken p hp := by
    rcases List.mem_pair.1 hp with rfl | rfl
    · rw [hc]
      exact hr.takes.congr rfl (fun p _ => p.same_refl s) fun p hp => hq.rest p (hapart p hp)
    · rw [hd]
      exact hq.takes.congr (hr.rest .params r.params_not_mem_parts).symm
        (fun p hp => hr.rest p fun hp' => hapart p hp' hp) fun p _ => p.same_refl u
  rest := (hr.rest.mono (by simp)).trans (hq.rest.mono (by simp))

end Machine

end Sys2Proof

/-! PROOFS. The transfer family: the simple transfers and SEX (R265, R271 to R280). -/

namespace Sys2Proof.Machine

/-- An accumulator written with no flag. -/
theorem gives8_plain (r : Reg8) (v : Byte) (u : State) : Gives8 r v [] u (u.set8 r v) := by
  have hccr : (u.set8 r v).setCcr u.ccr = u.set8 r v := by cases r <;> rfl
  exact hccr ▸ gives8_of (sets_nil u.ccr)

/-- D exchanged with another 16-bit register (R279, R280). -/
theorem exchangeD_unchanged (s : State) (r : Reg16) :
    Unchanged (Reg16.d.parts ++ r.parts) s ((s.set16 r s.d).set16 .d (s.get16 r)) :=
  ((s.set16_unchanged r _).mono (List.subset_append_right _ _)).trans
    ((State.set16_unchanged _ .d _).mono (List.subset_append_left _ _))

/-! ### SEX (R265) -/

theorem transferPlain_sex (s : State) (r1 : ByteReg) (r2 : WideReg) :
    transferPlain r1.toXfer r2.toXfer s =
      s.setWordLoc (wordLocOf r2.toXfer .tmp2) (sext8 (byteRegValue r1 s)) := by
  cases r2 <;> cases r1 <;> rfl

theorem wideRegValue_setWordLoc (s : State) (r : WideReg) (v : Word) :
    wideRegValue r (s.setWordLoc (wordLocOf r.toXfer .tmp2) v) = v := by
  cases r with
  | d => exact wordOf_high_low v
  | x | y | sp => rfl

theorem setWordLoc_wideReg_unchanged (s : State) (r : WideReg) (v : Word) :
    Unchanged (wideRegParts r) s (s.setWordLoc (wordLocOf r.toXfer .tmp2) v) := by
  have h := s.setWordLoc_unchanged (wordLocOf r.toXfer .tmp2) v
  cases r <;> exact h

theorem sex_runs (s : State) (r1 : ByteReg) (r2 : WideReg) : Runs (.sex r1 r2) s fun t =>
    wideRegValue r2 t = BitVec.ofInt 16 (byteRegValue r1 s).toInt ∧ Unchanged (wideRegParts r2) s t :=
  ⟨_, congrArg Host.Outcome.next (transferPlain_sex s r1 r2), wideRegValue_setWordLoc s r2 _,
    setWordLoc_wideReg_unchanged s r2 _⟩

/-- Settles O34: each is one register written, with the flags of its template, or D exchanged with an index register. -/
theorem simpleTransfers : Obligations.SimpleTransfers := fun s =>
  ⟨⟨_, rfl, load8_gives .b _ s⟩, ⟨_, rfl, load8_gives .a _ s⟩,
    ⟨_, rfl, ccrLoaded_of rfl, s.writeCcr_unchanged _⟩, ⟨_, rfl, gives8_plain .a _ s⟩,
    ⟨_, rfl, gives16_plain .x _ s⟩, ⟨_, rfl, gives16_plain .y _ s⟩, ⟨_, rfl, gives16_plain .sp _ s⟩,
    ⟨_, rfl, gives16_plain .sp _ s⟩, ⟨_, rfl, rfl, wordOf_high_low s.x, exchangeD_unchanged s .x⟩,
    ⟨_, rfl, rfl, wordOf_high_low s.y, exchangeD_unchanged s .y⟩, sex_runs s⟩

end Sys2Proof.Machine

/-! PROOFS. The transfer family: TFR and the tables of R266 and R267. -/

namespace Sys2Proof.Machine

/-! ### One place written -/

theorem setByteLoc_done {c : CellValue} {s : State} {v : Byte} (l : ByteLoc) (hc : c.value s = v.toNat) :
    CellDone [(c, l.reg)] s (s.setByteLoc l v) :=
  .of_writes (s.setByteLoc_writes l v) hc

theorem setWordLoc_done {c : CellValue} {s : State} {v : Word} (l : WordLoc) (hc : c.value s = v.toNat) :
    CellDone [(c, l.reg)] s (s.setWordLoc l v) :=
  .of_writes (s.setWordLoc_writes l v) hc

theorem copyByte_done (s : State) (l m : ByteLoc) :
    CellDone [(.reg l.reg, m.reg)] s (s.setByteLoc m (s.getByteLoc l)) :=
  setByteLoc_done m (l.reg_value s)

theorem copyWord_done (s : State) (l m : WordLoc) :
    CellDone [(.reg l.reg, m.reg)] s (s.setWordLoc m (s.getWordLoc l)) :=
  setWordLoc_done m (l.reg_value s)

theorem signExtend_done (s : State) (l : ByteLoc) (m : WordLoc) :
    CellDone [(.sex l.reg, m.reg)] s (s.setWordLoc m (sext8 (s.getByteLoc l))) :=
  setWordLoc_done m (by rw [CellValue.value, l.reg_value, sext8_toNat])

theorem zeroExtend_done (s : State) (l : ByteLoc) (m : WordLoc) :
    CellDone [(.zero l.reg, m.reg)] s (s.setWordLoc m (zext8 (s.getByteLoc l))) :=
  setWordLoc_done m (by rw [CellValue.value, l.reg_value, zext8_toNat])

theorem signD_done (s : State) (m : WordLoc) : CellDone [(.signs .d, m.reg)] s (s.setWordLoc m (signWord s.d)) :=
  setWordLoc_done m (by rw [signWord_toNat, State.d, wordOf_toNat]; rfl)

/-! ### The cells of R266 -/

theorem transferRow_toByte {r1 r2 : XferReg} {m : ByteLoc} (h : byteLocOf r2 = some m) :
    cellOf (transferRow r2) r1 = [(.reg (lowLocOf r1).reg, m.reg)] := by
  cases r2 <;> cases h <;> cases r1 <;> rfl

theorem transferRow_byteToWord {r1 r2 : XferReg} {l : ByteLoc} (h : byteLocOf r2 = none) (h' : byteLocOf r1 = some l) :
    cellOf (transferRow r2) r1 = [(.sex l.reg, (wordLocOf r2 .tmp2).reg)] := by
  cases r1 <;> cases h' <;> cases r2 <;> cases h <;> rfl

theorem transferRow_wordToWord {r1 r2 : XferReg} (h : byteLocOf r2 = none) (h' : byteLocOf r1 = none) :
    cellOf (transferRow r2) r1 = [(.reg (wordLocOf r1 .tmp3).reg, (wordLocOf r2 .tmp2).reg)] := by
  cases r1 <;> cases h' <;> cases r2 <;> cases h <;> rfl

theorem transferPlain_done (s : State) (r1 r2 : XferReg) :
    CellDone (cellOf (transferRow r2) r1) s (transferPlain r1 r2 s) := by
  unfold transferPlain
  split
  next m h => exact transferRow_toByte h ▸ copyByte_done s _ m
  next h =>
    split
    next l h' => exact transferRow_byteToWord h h' ▸ signExtend_done s l _
    next h' => exact transferRow_wordToWord h h' ▸ copyWord_done s _ _

/-! ### The cells of R267 -/

/-- Row by row: a byte from A or B into a half of the second register, and else a word into the whole of it. -/
theorem transferAlt_done (s : State) (r1 r2 : XferReg) :
    CellDone (cellOf (transferRowAlt r2) r1) s (transferAlt r1 r2 s) := by
  have word := copyWord_done s (wordLocOf r1 .tmp3)
  cases r2 with
  | a =>
    have high := copyByte_done s (highLocOf r1) .a
    cases r1 <;> exact high
  | b =>
    have low := copyByte_done s (lowLocOf r1) .b
    cases r1 <;> exact low
  | ccr =>
    cases r1 with
    | a => exact copyByte_done s .a .ccrh
    | b => exact copyByte_done s .b .ccr
    | _ => exact word .ccrw
  | tmp =>
    cases r1 with
    | a => exact copyByte_done s .a .tmp2High
    | b => exact copyByte_done s .b .tmp2Low
    | d => exact copyWord_done s .d .tmp1
    | _ => exact word .tmp2
  | d =>
    cases r1 with
    | a => exact signExtend_done s .a .d
    | b => exact signExtend_done s .b .d
    | tmp => exact copyWord_done s .tmp1 .d
    | _ => exact word .d
  | x =>
    cases r1 with
    | a => exact copyByte_done s .a .xHigh
    | b => exact copyByte_done s .b .xLow
    | d => exact signD_done s .x
    | _ => exact word .x
  | y =>
    cases r1 with
    | a => exact copyByte_done s .a .yHigh
    | b => exact copyByte_done s .b .yLow
    | d => exact signD_done s .y
    | _ => exact word .y
  | sp =>
    cases r1 with
    | a => exact copyByte_done s .a .spHigh
    | b => exact copyByte_done s .b .spLow
    | _ => exact word .sp

/-! ### The obligation -/

theorem CellReg.parts_subset (r : CellReg) : r.parts ⊆ transferParts := by cases r <;> decide

/-- A cell of any table changes none but the registers that transfers and exchanges can reach. -/
theorem CellDone.unchanged {cell : Cell} {s t : State} (h : CellDone cell s t) : Unchanged transferParts s t :=
  h.rest.mono fun _ hp =>
    have ⟨pair, _, hpart⟩ := List.mem_flatMap.1 hp
    pair.2.parts_subset hpart

/-- Settles O35: each cell is one place written, and bit 3 does the same on both variants. -/
theorem transfersFollowTheTables : Obligations.TransfersFollowTheTables := fun s r1 r2 =>
  have alt := transferAlt_done s r1 r2
  ⟨⟨_, rfl, transferPlain_done s r1 r2⟩, fun _ => ⟨_, rfl, alt⟩, ⟨_, rfl, alt.unchanged⟩⟩

end Sys2Proof.Machine

/-! PROOFS. The transfer family: EXG and the tables of R268 and R269. -/

namespace Sys2Proof.Machine

/-! ### A place exchanged with itself -/

theorem writtenCcr_idem (old v : Byte) : writtenCcr (writtenCcr old v) v = writtenCcr old v := by
  apply ccr_ext
  intro f
  simp only [flagOf_writtenCcr]
  split <;> simp

theorem writtenCcrh_idem (wmask old v : Byte) :
    writtenCcrh wmask (writtenCcrh wmask old v) v = writtenCcrh wmask old v := by
  apply BitVec.eq_of_getLsbD_eq
  intro k hk
  simp only [writtenCcrh_getLsbD _ _ _ hk]
  split <;> rfl

theorem State.setByteLoc_idem (s : State) (l : ByteLoc) (v : Byte) :
    (s.setByteLoc l v).setByteLoc l v = s.setByteLoc l v := by
  cases l with
  | a | b => rfl
  | ccr => exact congrArg s.setCcr (writtenCcr_idem s.ccr v)
  | ccrh => simp only [setByteLoc, writeCcrh, writtenCcrh_idem]
  | _ => simp only [setByteLoc, wordOf_high, wordOf_low]

theorem State.setWordLoc_idem (s : State) (l : WordLoc) (v : Word) :
    (s.setWordLoc l v).setWordLoc l v = s.setWordLoc l v := by
  cases l with
  | ccrw => simp only [setWordLoc, writeCcrw, writeCcrh, writeCcr, writtenCcr_idem, writtenCcrh_idem]
  | _ => rfl

/-! ### Two places exchanged -/

/-- The cell of two registers that take each other's values; a register exchanged with itself has one arrow. -/
def exchanged (l m : CellReg) : Cell := if l = m then [(.reg l, l)] else [(.reg l, m), (.reg m, l)]

theorem CellDone.perm {cell cell' : Cell} {s t : State} (h : CellDone cell s t) (hperm : cell.Perm cell') :
    CellDone cell' s t where
  taken p hp := h.taken p (hperm.mem_iff.2 hp)
  rest := h.rest.mono (hperm.flatMap_right _).subset

theorem CellReg.Apart.ne {r q : CellReg} (h : r.Apart q) : r ≠ q := by
  rintro rfl
  obtain ⟨p, hp⟩ : ∃ p, p ∈ r.parts := by cases r <;> exact ⟨_, List.mem_cons_self⟩
  exact h p hp hp

theorem swapBytes_done (s : State) (l m : ByteLoc) (h : l = m ∨ l.reg.Apart m.reg) :
    CellDone (exchanged l.reg m.reg) s (s.swapBytes l m) := by
  unfold exchanged State.swapBytes
  rcases h with rfl | hapart
  · rw [if_pos rfl, s.setByteLoc_idem]
    exact copyByte_done s l l
  · rw [if_neg hapart.ne]
    have done : CellDone [(.reg m.reg, l.reg), (.reg l.reg, m.reg)] s _ :=
      .of_writes_writes (s.setByteLoc_writes l _) (State.setByteLoc_writes _ m _) (m.reg_value s) (l.reg_value s) hapart
    exact done.perm (.swap _ _ _)

theorem swapWords_done (s : State) (l m : WordLoc) (h : l = m ∨ l.reg.Apart m.reg) :
    CellDone (exchanged l.reg m.reg) s (s.swapWords l m) := by
  unfold exchanged State.swapWords
  rcases h with rfl | hapart
  · rw [if_pos rfl, s.setWordLoc_idem]
    exact copyWord_done s l l
  · rw [if_neg hapart.ne]
    have done : CellDone [(.reg m.reg, l.reg), (.reg l.reg, m.reg)] s _ :=
      .of_writes_writes (s.setWordLoc_writes l _) (State.setWordLoc_writes _ m _) (m.reg_value s) (l.reg_value s) hapart
    exact done.perm (.swap _ _ _)

/-! ### A byte and a word exchanged (R268) -/

/-- A byte into a word with $00 before it, and the low byte of the word, which is a place of its own, back. -/
theorem zeroExtend_swap_done (s : State) (l low : ByteLoc) (m : WordLoc)
    (hlow : (s.getWordLoc m).low = s.getByteLoc low) (hapart : m.reg.Apart l.reg) :
    CellDone [(.zero l.reg, m.reg), (.reg low.reg, l.reg)] s
      ((s.setWordLoc m (zext8 (s.getByteLoc l))).setByteLoc l (s.getWordLoc m).low) :=
  .of_writes_writes (s.setWordLoc_writes m _) (State.setByteLoc_writes _ l _)
    (by rw [CellValue.value, l.reg_value, zext8_toNat]) (by rw [CellValue.value, low.reg_value, hlow]) hapart

/-- The old byte with the byte that accompanies it, as the tables write it. -/
def filled : ByteLoc → CellValue
  | .a => .zero .a
  | m => .ones m.reg

theorem filled_value (s : State) (m : ByteLoc) :
    (filled m).value s = (wordOf (exchangeFill m) (s.getByteLoc m)).toNat := by
  rw [wordOf_toNat, ← m.reg_value]
  cases m with
  | a => exact (Nat.zero_add _).symm
  | _ => rfl

/-- The low byte of a word into a byte, and the old byte back into the word under its fill. -/
theorem fill_swap_done (s : State) (low m : ByteLoc) (l : WordLoc) (hapart : m.reg.Apart l.reg) :
    CellDone [(.reg low.reg, m.reg), (filled m, l.reg)] s
      ((s.setByteLoc m (s.getByteLoc low)).setWordLoc l (wordOf (exchangeFill m) (s.getByteLoc m))) :=
  .of_writes_writes (s.setByteLoc_writes m _) (State.setWordLoc_writes _ l _) (low.reg_value s) (filled_value s m)
    hapart

/-- `EXG D,B`: A takes $FF and B keeps its value. -/
theorem onesIntoA_done (s : State) : CellDone [(.allOnes, .a), (.reg .b, .b)] s (s.setByteLoc .a 0xFF#8) :=
  .of_writes_writes (u := s.setByteLoc .a 0xFF#8) (s.setByteLoc_writes .a 0xFF#8)
    (State.setByteLoc_writes _ .b s.b) rfl rfl (by decide)

/-- B under $FF written to D is A written. -/
theorem setWordLoc_d_ones (s : State) :
    (s.setByteLoc .b s.b).setWordLoc .d (wordOf 0xFF#8 s.b) = s.setByteLoc .a 0xFF#8 := by
  simp only [State.setWordLoc, State.setByteLoc, State.setD, wordOf_high, wordOf_low]

/-! ### The cells of R268 -/

theorem exchangeByteWord_done (s : State) {r1 r2 : XferReg} {l : ByteLoc} (h : byteLocOf r1 = some l)
    (h' : byteLocOf r2 = none) : CellDone (cellOf (exchangeRow r2) r1) s (exchangeByteWord r1 l r2 s) := by
  have swap := zeroExtend_swap_done s l
  cases r2 with
  | a | b | ccr => cases h'
  | tmp => cases r1 <;> cases h <;> exact swap .tmp2Low .tmp2 rfl (by decide)
  | d =>
    cases r1 with
    | a => cases h; exact zeroExtend_done s .a .d
    | b => cases h; exact zeroExtend_done s .b .d
    | ccr => cases h; exact swap .b .d (wordOf_low _ _) (by decide)
    | _ => cases h
  | x => cases r1 <;> cases h <;> exact swap .xLow .x rfl (by decide)
  | y => cases r1 <;> cases h <;> exact swap .yLow .y rfl (by decide)
  | sp => cases r1 <;> cases h <;> exact swap .spLow .sp rfl (by decide)

theorem exchangeWordByte_done (s : State) {r1 r2 : XferReg} {m : ByteLoc} (h : byteLocOf r1 = none)
    (h' : byteLocOf r2 = some m) : CellDone (cellOf (exchangeRow r2) r1) s (exchangeWordByte r1 r2 m s) := by
  have swap := fill_swap_done s (lowLocOf r1) m (wordLocOf r1 .tmp3)
  cases r1 with
  | a | b | ccr => cases h
  | tmp | x | y | sp => cases r2 <;> cases h' <;> exact swap (by decide)
  | d =>
    cases r2 with
    | a => cases h'; exact (swapBytes_done s .a .b (.inr (by decide))).perm (.swap _ _ _)
    | b =>
      cases h'
      have done := (onesIntoA_done s).perm (.swap _ _ _)
      rw [← setWordLoc_d_ones s] at done
      exact done
    | ccr => cases h'; exact swap (by decide)
    | _ => cases h'

theorem exchangeRow_bytes {r1 r2 : XferReg} {l m : ByteLoc} (h : byteLocOf r1 = some l) (h' : byteLocOf r2 = some m) :
    cellOf (exchangeRow r2) r1 = exchanged l.reg m.reg := by
  cases r1 <;> cases h <;> cases r2 <;> cases h' <;> rfl

theorem exchangeRow_words {r1 r2 : XferReg} (h : byteLocOf r1 = none) (h' : byteLocOf r2 = none) :
    cellOf (exchangeRow r2) r1 = exchanged (wordLocOf r1 .tmp3).reg (wordLocOf r2 .tmp2).reg := by
  cases r1 <;> cases h <;> cases r2 <;> cases h' <;> rfl

theorem byteLocOf_same_or_apart {r1 r2 : XferReg} {l m : ByteLoc} (h : byteLocOf r1 = some l)
    (h' : byteLocOf r2 = some m) : l = m ∨ l.reg.Apart m.reg := by
  cases r1 <;> cases h <;> cases r2 <;> cases h' <;> decide

theorem wordLocOf_same_or_apart (r1 r2 : XferReg) : wordLocOf r1 .tmp3 = wordLocOf r2 .tmp2 ∨
    (wordLocOf r1 .tmp3).reg.Apart (wordLocOf r2 .tmp2).reg := by
  cases r1 <;> cases r2 <;> decide

theorem exchangePlain_done (s : State) (r1 r2 : XferReg) :
    CellDone (cellOf (exchangeRow r2) r1) s (exchangePlain r1 r2 s) := by
  unfold exchangePlain
  split
  next l m h h' => exact exchangeRow_bytes h h' ▸ swapBytes_done s l m (byteLocOf_same_or_apart h h')
  next l h h' => exact exchangeByteWord_done s h h'
  next m h h' => exact exchangeWordByte_done s h h'
  next h h' => exact exchangeRow_words h h' ▸ swapWords_done s _ _ (wordLocOf_same_or_apart r1 r2)

/-! ### The cells of R269 -/

/-- The cells of a row of R269 whose second register has the halves `hi` and `lo`. -/
def indexCell (hi lo : ByteLoc) (dst : WordLoc) : XferReg → Cell
  | .a => exchanged .a hi.reg
  | .b => exchanged .b lo.reg
  | r1 => exchanged (wordLocOf r1 .tmp3).reg dst.reg

theorem exchangeIndex_done (s : State) (hi lo : ByteLoc) (dst : WordLoc) (r1 : XferReg)
    (hhi : CellReg.a.Apart hi.reg) (hlo : CellReg.b.Apart lo.reg)
    (hdst : wordLocOf r1 .tmp3 = dst ∨ (wordLocOf r1 .tmp3).reg.Apart dst.reg) :
    CellDone (indexCell hi lo dst r1) s (exchangeIndex hi lo dst r1 s) := by
  cases r1 with
  | a => exact swapBytes_done s .a hi (.inr hhi)
  | b => exact swapBytes_done s .b lo (.inr hlo)
  | _ => exact swapWords_done s _ dst hdst

/-- Row by row: A or B with a half of the second register, and else two words. -/
theorem exchangeAlt_done (s : State) (r1 r2 : XferReg) :
    CellDone (cellOf (exchangeRowAlt r2) r1) s (exchangeAlt r1 r2 s) := by
  cases r2 with
  | a =>
    have high := swapBytes_done s (highLocOf r1) .a (by cases r1 <;> decide)
    cases r1 <;> exact high
  | b =>
    have low := swapBytes_done s (lowLocOf r1) .b (by cases r1 <;> decide)
    cases r1 with
    | d => exact onesIntoA_done s
    | _ => exact low
  | ccr =>
    have index := exchangeIndex_done s .ccrh .ccr .ccrw r1 (by decide) (by decide) (by cases r1 <;> decide)
    cases r1 <;> exact index
  | tmp =>
    have index := exchangeIndex_done s .tmp2High .tmp2Low .tmp2 r1 (by decide) (by decide) (by cases r1 <;> decide)
    cases r1 with
    | d => exact swapWords_done s .d .tmp1 (by decide)
    | _ => exact index
  | d =>
    have word := swapWords_done s (wordLocOf r1 .tmp1) .d (by cases r1 <;> decide)
    cases r1 with
    | a => exact zeroExtend_done s .a .d
    | b => exact zeroExtend_done s .b .d
    | _ => exact word
  | x =>
    have index := exchangeIndex_done s .xHigh .xLow .x r1 (by decide) (by decide) (by cases r1 <;> decide)
    cases r1 <;> exact index
  | y =>
    have index := exchangeIndex_done s .yHigh .yLow .y r1 (by decide) (by decide) (by cases r1 <;> decide)
    cases r1 <;> exact index
  | sp =>
    have index := exchangeIndex_done s .spHigh .spLow .sp r1 (by decide) (by decide) (by cases r1 <;> decide)
    cases r1 <;> exact index

/-- Settles O36: each cell is two places written with the old values, and bit 3 does the same on both variants. -/
theorem exchangesFollowTheTables : Obligations.ExchangesFollowTheTables := fun s r1 r2 =>
  have alt := exchangeAlt_done s r1 r2
  ⟨⟨_, rfl, exchangePlain_done s r1 r2⟩, fun _ => ⟨_, rfl, alt⟩, ⟨_, rfl, alt.unchanged⟩⟩

end Sys2Proof.Machine

/-! PROOFS. The addition and subtraction family: what each template gives (R301 to R306). -/

namespace Sys2Proof.Machine

/-! ### The registers that an operand leaves (R132, R146) -/

/-- An operand auto-modifies no accumulator (R132). -/
theorem src8After_get8 (src : Src8) (s : State) (r : Reg8) : (src8After src s).get8 r = s.get8 r := by
  cases r with
  | a => exact src8After_a src s
  | b => exact src8After_b src s

theorem src16After_d (src : Src16) (s : State) : (src16After src s).d = s.d := by simp [State.d]

theorem src16After_flag (src : Src16) (s : State) (f : Flag) : (src16After src s).flag f = s.flag f :=
  State.flag_eq_of_ccr (src16After_ccr src s) f

/-! ### Addition (R301, R302, R304) -/

theorem add8_gives (r : Reg8) (m : Byte) (cin : Bool) (t : State) :
    Gives8 r (plus (t.get8 r) m cin) ((.h, nibbleCarry (t.get8 r) m cin) :: addFlags (t.get8 r) m cin) t
      (add8 r m cin t) :=
  gives8_of (add8_sets t.ccr _ m cin)

/-- The accumulator is the same before and after the operand. -/
theorem add8_src_gives (r : Reg8) (src : Src8) (cin : Bool) (s : State) :
    Gives8 r (plus (s.get8 r) (src8Value src s) cin)
      ((.h, nibbleCarry (s.get8 r) (src8Value src s) cin) :: addFlags (s.get8 r) (src8Value src s) cin)
      (src8After src s) (add8 r (src8Value src s) cin (src8After src s)) :=
  src8After_get8 src s r ▸ add8_gives r (src8Value src s) cin (src8After src s)

theorem add16_gives (r : Reg16) (m : Word) (t : State) :
    Gives16 r (plus (t.get16 r) m false) (addFlags (t.get16 r) m false) t (add16 r m t) :=
  gives16_of (add16_sets t.ccr _ m false)

theorem addFlags_ne_h {w : Nat} (a m : BitVec w) (c : Bool) : ∀ p ∈ addFlags a m c, p.1 ≠ .h := by
  simp [addFlags]

/-- `ExtZMode` changes the value of a flag, never which flags are listed (R304). -/
theorem underExtZ_ne {f : Flag} {l : List (Flag × Bool)} (h : ∀ p ∈ l, p.1 ≠ f) (mode : ExtZMode) (z : Bool) :
    ∀ p ∈ underExtZ mode z l, p.1 ≠ f := by
  intro p hp
  obtain ⟨q, hq, rfl⟩ := List.mem_map.1 hp
  have hne := h q hq
  split
  next hz => exact hz.1 ▸ hne
  next => exact hne

/-- ADDX and ADDY: H is whatever `AddXH` gives (R308). -/
theorem add16X_gives (r : Reg16) (m : Word) (t : State) :
    ∃ h, Gives16 r (plus (t.get16 r) m false) ((.h, h) :: addFlags (t.get16 r) m false) t (add16X r m t) :=
  ⟨_, gives16_of (sets_h (add16_sets t.ccr _ m false) (addFlags_ne_h _ _ _))⟩

theorem addCarry16X_gives (r : Reg16) (m : Word) (t : State) :
    ∃ h, Gives16 r (plus (t.get16 r) m (t.flag .c))
      ((.h, h) :: underExtZ t.params.extZMode (t.flag .z) (addFlags (t.get16 r) m (t.flag .c))) t
      (addCarry16X r m t) :=
  ⟨_, gives16_of (sets_h (addCarry16_sets _ t.ccr _ m _) (underExtZ_ne (addFlags_ne_h _ _ _) _ _))⟩

/-- The carry, the old Z and the mode are the same before and after the operand. -/
theorem addCarry16X_src_gives (r : Reg16) (src : Src16) (s : State) :
    ∃ h, Gives16 r (plus ((src16After src s).get16 r) (src16Value src s) (s.flag .c))
      ((.h, h) :: underExtZ s.params.extZMode (s.flag .z)
        (addFlags ((src16After src s).get16 r) (src16Value src s) (s.flag .c)))
      (src16After src s) (addCarry16X r (src16Value src s) (src16After src s)) := by
  have gives := addCarry16X_gives r (src16Value src s) (src16After src s)
  rwa [src16After_flag, src16After_flag, src16After_params] at gives

/-! ### Subtraction (R303, R304) -/

theorem sub8_gives (r : Reg8) (m : Byte) (bin : Bool) (t : State) :
    Gives8 r (minus (t.get8 r) m bin) (subFlags (t.get8 r) m bin) t (sub8 r m bin t) :=
  gives8_of (sub8_sets t.ccr _ m bin)

/-- The accumulator is the same before and after the operand. -/
theorem sub8_src_gives (r : Reg8) (src : Src8) (bin : Bool) (s : State) :
    Gives8 r (minus (s.get8 r) (src8Value src s) bin) (subFlags (s.get8 r) (src8Value src s) bin) (src8After src s)
      (sub8 r (src8Value src s) bin (src8After src s)) :=
  src8After_get8 src s r ▸ sub8_gives r (src8Value src s) bin (src8After src s)

theorem sub16_gives (r : Reg16) (m : Word) (t : State) :
    Gives16 r (minus (t.get16 r) m false) (subFlags (t.get16 r) m false) t (sub16 r m t) :=
  gives16_of (sub16_sets t.ccr _ m false)

theorem subBorrow16_gives (r : Reg16) (m : Word) (t : State) :
    Gives16 r (minus (t.get16 r) m (t.flag .c))
      (underExtZ t.params.extZMode (t.flag .z) (subFlags (t.get16 r) m (t.flag .c))) t (subBorrow16 r m t) :=
  gives16_of (subBorrow16_sets _ t.ccr _ m _)

/-- The borrow, the old Z and the mode are the same before and after the operand. -/
theorem subBorrow16_src_gives (r : Reg16) (src : Src16) (s : State) :
    Gives16 r (minus ((src16After src s).get16 r) (src16Value src s) (s.flag .c))
      (underExtZ s.params.extZMode (s.flag .z)
        (subFlags ((src16After src s).get16 r) (src16Value src s) (s.flag .c)))
      (src16After src s) (subBorrow16 r (src16Value src s) (src16After src s)) := by
  have gives := subBorrow16_gives r (src16Value src s) (src16After src s)
  rwa [src16After_flag, src16After_flag, src16After_params] at gives

/-! ### Only Z written (R341, R342, R350, R351) -/

theorem onlyZ_gives (r : Reg16) (v : Word) (s : State) :
    Gives16 r v [(.z, decide (v.toNat = 0))] s ((s.set16 r v).setCcr (withFlag s.ccr .z (v == 0))) :=
  gives16_of (beq_zero_eq v ▸ sets_one s.ccr .z (v == 0))

/-! ### Read-modify-write (R90) -/

section ReadModifyWrite

variable {s : State}

theorem modify8_becomes (hinv : s.Inv) (ea : Ea) {result made : Byte → Byte} {flags : Byte → List (Flag × Bool)}
    {ccr : Byte → Byte} (hresult : made = result) (hflags : ∀ m, Ccr.Sets (flags m) s.ccr (ccr m)) :
    ByteBecomes ea result flags s (modify8 ea made ccr s) := by
  have hready := (keeps_afterMemByte ea s).inv hinv
  have hccr := (afterMemByte_ccr ea s).symm ▸ hflags (memByte ea s)
  subst hresult
  exact givesByte_of hready.mem hready.gmem hccr

theorem modify16_becomes (hinv : s.Inv) (ea : Ea) {result made : Word → Word} {flags : Word → List (Flag × Bool)}
    {ccr : Word → Byte} (hresult : made = result) (hflags : ∀ m, Ccr.Sets (flags m) s.ccr (ccr m)) :
    WordBecomes ea result flags s (modify16 ea made ccr s) := by
  have hready := (keeps_afterMemWord ea s).inv hinv
  have hccr := (afterMemWord_ccr ea s).symm ▸ hflags (memWord ea s)
  subst hresult
  exact givesWord_of hready.mem hready.gmem hccr

theorem modifyReg8_becomes (r : Reg8) {result made : Byte → Byte} {flags : Byte → List (Flag × Bool)}
    {ccr : Byte → Byte} (hresult : made = result) (hflags : ∀ m, Ccr.Sets (flags m) s.ccr (ccr m)) :
    Reg8Becomes r result flags s (modifyReg8 r made ccr s) := by
  subst hresult
  exact gives8_of (hflags (s.get8 r))

theorem modifyReg16_becomes (r : Reg16) {result made : Word → Word} {flags : Word → List (Flag × Bool)}
    {ccr : Word → Byte} (hresult : made = result) (hflags : ∀ m, Ccr.Sets (flags m) s.ccr (ccr m)) :
    Reg16Becomes r result flags s (modifyReg16 r made ccr s) := by
  subst hresult
  exact gives16_of (hflags (s.get16 r))

end ReadModifyWrite

/-! ### Decimal adjust (R334) -/

/-- A correction applied or not is a number of times the correction. -/
theorem ite_eq_mul_toNat (b : Bool) (n : Nat) : (if b then n else 0) = n * b.toNat := by
  cases b with
  | false => exact (Nat.mul_zero n).symm
  | true => exact (Nat.mul_one n).symm

/-- DAA: the low-digit correction as a number of times $06. -/
theorem daaLow_eq (s : State) : daaLow s = 0x06 * (decide (s.flag .h = true ∨ 9 < s.a.toNat % 16)).toNat := by
  rw [daaLow, ite_eq_mul_toNat, Bool.decide_or, Bool.decide_eq_true]

/-- DAA: when the high-digit correction is applied. -/
theorem daaHigh_eq (s : State) : daaHigh s =
    decide (s.flag .c = true ∨ 0x99 < s.a.toNat ∨ (9 ≤ s.a.toNat / 16 ∧ 9 < s.a.toNat % 16)) := by
  rw [daaHigh, Bool.decide_or, Bool.decide_or, Bool.decide_and, Bool.decide_eq_true, Bool.or_assoc]

/-- DAA keeps a carry that was set: its high-digit correction is then applied. -/
theorem flag_c_or_daaHigh (s : State) : (s.flag .c || daaHigh s) = daaHigh s := by
  rw [daaHigh, ← Bool.or_assoc, ← Bool.or_assoc, Bool.or_self]

/-- N, Z, V and C in the order in which DAA lists them. -/
theorem daaCcr_sets (k r : Byte) (v c : Bool) :
    Ccr.Sets ((.v, v) :: (.c, c) :: nzOf r) k (withNZVC k r.msb (r == 0) v c) := by
  refine sets_of_mem_iff (sets_nzvc k r.msb (r == 0#8) v c) fun p => ?_
  simp only [nzOf, beq_zero_eq, List.mem_cons, List.not_mem_nil, or_false]
  tauto

theorem daa_gives (s : State) :
    Gives8 .a (BitVec.ofNat 8 (s.a.toNat + daaLow s + 0x60 * (daaHigh s).toNat))
      ((.v, Config.daaV s.fresh) :: (.c, daaHigh s) ::
        nzOf (BitVec.ofNat 8 (s.a.toNat + daaLow s + 0x60 * (daaHigh s).toNat))) s (daa s) := by
  simp only [daa, flag_c_or_daaHigh, ite_eq_mul_toNat]
  exact gives8_of (daaCcr_sets s.ccr _ _ _)

end Sys2Proof.Machine

/-! PROOFS. The addition and subtraction family: the statements (R310, R313 to R342, R344 to R351, R353 to R358, R434 to
R439). -/

namespace Sys2Proof.Machine

/-- Settles O37: each is the 8-bit addition template over what its operand leaves. -/
theorem byteAdditions : Obligations.ByteAdditions := fun s =>
  ⟨⟨_, rfl, add8_gives .a s.b false s⟩, fun src => ⟨_, rfl, add8_src_gives .a src (s.flag .c) s⟩,
    fun src => ⟨_, rfl, add8_src_gives .b src (s.flag .c) s⟩, fun src => ⟨_, rfl, add8_src_gives .a src false s⟩,
    fun src => ⟨_, rfl, add8_src_gives .b src false s⟩⟩

/-- Settles O38: ADDD leaves H, the templates of the other five write a free value to it. -/
theorem wordAdditions : Obligations.WordAdditions := fun s =>
  ⟨fun src => ⟨_, rfl, src16After_d src s ▸ add16_gives .d (src16Value src s) (src16After src s)⟩,
    fun hvariant =>
      ⟨fun _ => runs_of_onHcs12x hvariant rfl (add16X_gives .x _ _),
        fun _ => runs_of_onHcs12x hvariant rfl (add16X_gives .y _ _),
        fun src => runs_of_onHcs12x hvariant rfl (addCarry16X_src_gives .d src s),
        fun src => runs_of_onHcs12x hvariant rfl (addCarry16X_src_gives .x src s),
        fun src => runs_of_onHcs12x hvariant rfl (addCarry16X_src_gives .y src s)⟩⟩

/-- Settles O39: each is a subtraction template over what its operand leaves. -/
theorem subtractions : Obligations.Subtractions := fun s =>
  ⟨⟨_, rfl, sub8_gives .a s.b false s⟩, fun src => ⟨_, rfl, sub8_src_gives .a src false s⟩,
    fun src => ⟨_, rfl, sub8_src_gives .b src false s⟩, fun src => ⟨_, rfl, sub8_src_gives .a src (s.flag .c) s⟩,
    fun src => ⟨_, rfl, sub8_src_gives .b src (s.flag .c) s⟩, fun _ => ⟨_, rfl, sub16_gives .d _ _⟩,
    fun hvariant =>
      ⟨fun _ => runs_of_onHcs12x hvariant rfl (sub16_gives .x _ _),
        fun _ => runs_of_onHcs12x hvariant rfl (sub16_gives .y _ _),
        fun src => runs_of_onHcs12x hvariant rfl (subBorrow16_src_gives .d src s),
        fun src => runs_of_onHcs12x hvariant rfl (subBorrow16_src_gives .x src s),
        fun src => runs_of_onHcs12x hvariant rfl (subBorrow16_src_gives .y src s)⟩⟩

/-- Settles O40: one more or one less, with Z alone written. -/
theorem indexCountersWriteOnlyZ : Obligations.IndexCountersWriteOnlyZ := fun s =>
  ⟨⟨_, rfl, plus_one16 s.x ▸ onlyZ_gives .x (s.x + 1) s⟩, ⟨_, rfl, plus_one16 s.y ▸ onlyZ_gives .y (s.y + 1) s⟩,
    ⟨_, rfl, minus_one16 s.x ▸ onlyZ_gives .x (s.x - 1) s⟩, ⟨_, rfl, minus_one16 s.y ▸ onlyZ_gives .y (s.y - 1) s⟩⟩

/-- Settles O41: the two corrections as numbers, and C from the high one. -/
theorem decimalAdjust : Obligations.DecimalAdjust := by
  intro s low high r
  have hhigh : daaHigh s = high := daaHigh_eq s
  have gives := daa_gives s
  rw [daaLow_eq, hhigh] at gives
  exact ⟨_, rfl, _, gives⟩

/-- Settles O42: each replaces its operand by one more or one less of it. -/
theorem incrementsAndDecrements : Obligations.IncrementsAndDecrements := by
  intro s hinv
  have inc8 : (fun m : Byte => m + 1) = (plus · 1 false) := funext fun m => (plus_one8 m).symm
  have dec8 : (fun m : Byte => m - 1) = (minus · 1 false) := funext fun m => (minus_one8 m).symm
  have inc16 : (fun m : Word => m + 1) = (plus · 1 false) := funext fun m => (plus_one16 m).symm
  have dec16 : (fun m : Word => m - 1) = (minus · 1 false) := funext fun m => (minus_one16 m).symm
  have incFlags8 := incCcr8_sets s.ccr
  have decFlags8 := decCcr8_sets s.ccr
  have incFlags16 := incCcr16_sets s.ccr
  have decFlags16 := decCcr16_sets s.ccr
  exact ⟨fun ea => ⟨_, rfl, modify8_becomes hinv ea inc8 incFlags8⟩,
    ⟨_, rfl, modifyReg8_becomes .a inc8 incFlags8⟩, ⟨_, rfl, modifyReg8_becomes .b inc8 incFlags8⟩,
    fun ea => ⟨_, rfl, modify8_becomes hinv ea dec8 decFlags8⟩,
    ⟨_, rfl, modifyReg8_becomes .a dec8 decFlags8⟩, ⟨_, rfl, modifyReg8_becomes .b dec8 decFlags8⟩,
    fun hvariant =>
      ⟨fun ea => runs_of_onHcs12x hvariant rfl (modify16_becomes hinv ea inc16 incFlags16),
        runs_of_onHcs12x hvariant rfl (modifyReg16_becomes .x inc16 incFlags16),
        runs_of_onHcs12x hvariant rfl (modifyReg16_becomes .y inc16 incFlags16),
        fun ea => runs_of_onHcs12x hvariant rfl (modify16_becomes hinv ea dec16 decFlags16),
        runs_of_onHcs12x hvariant rfl (modifyReg16_becomes .x dec16 decFlags16),
        runs_of_onHcs12x hvariant rfl (modifyReg16_becomes .y dec16 decFlags16)⟩⟩

/-- Settles O46: each replaces its operand by zero minus it, or by its complement. -/
theorem negationsAndComplements : Obligations.NegationsAndComplements := by
  intro s hinv
  have neg8 : (fun m : Byte => (subAlu 0 m false).r) = (minus 0 · false) := funext fun m => subAlu_r 0 m false
  have neg16 : (fun m : Word => (subAlu 0 m false).r) = (minus 0 · false) := funext fun m => subAlu_r 0 m false
  have negFlags8 (m : Byte) := sub8_sets s.ccr 0 m false
  have negFlags16 (m : Word) := sub16_sets s.ccr 0 m false
  have comFlags8 (m : Byte) := complementCcr_sets s.ccr (~~~m)
  have comFlags16 (m : Word) := complementCcr_sets s.ccr (~~~m)
  exact ⟨fun ea => ⟨_, rfl, modify8_becomes hinv ea neg8 negFlags8⟩,
    ⟨_, rfl, modifyReg8_becomes .a neg8 negFlags8⟩, ⟨_, rfl, modifyReg8_becomes .b neg8 negFlags8⟩,
    fun ea => ⟨_, rfl, modify8_becomes hinv ea rfl comFlags8⟩,
    ⟨_, rfl, modifyReg8_becomes .a rfl comFlags8⟩, ⟨_, rfl, modifyReg8_becomes .b rfl comFlags8⟩,
    fun hvariant =>
      ⟨fun ea => runs_of_onHcs12x hvariant rfl (modify16_becomes hinv ea neg16 negFlags16),
        runs_of_onHcs12x hvariant rfl (modifyReg16_becomes .x neg16 negFlags16),
        runs_of_onHcs12x hvariant rfl (modifyReg16_becomes .y neg16 negFlags16),
        fun ea => runs_of_onHcs12x hvariant rfl (modify16_becomes hinv ea rfl comFlags16),
        runs_of_onHcs12x hvariant rfl (modifyReg16_becomes .x rfl comFlags16),
        runs_of_onHcs12x hvariant rfl (modifyReg16_becomes .y rfl comFlags16)⟩⟩

end Sys2Proof.Machine

/-! PROOFS. The compare and test family: flags of a difference, of a value and of a conjunction, with nothing else
written (R381 to R402). -/

namespace Sys2Proof.Machine

/-! ### Compares (R381) -/

theorem compare8_gives (a m : Byte) (bin : Bool) (u : State) : GivesFlags (subFlags a m bin) u (compare a m bin u) :=
  givesFlags_of (sub8_sets u.ccr a m bin)

theorem compare16_gives (a m : Word) (bin : Bool) (u : State) : GivesFlags (subFlags a m bin) u (compare a m bin u) :=
  givesFlags_of (sub16_sets u.ccr a m bin)

/-- The accumulator is the same before and after the operand. -/
theorem compare8_src_gives (r : Reg8) (src : Src8) (s : State) :
    GivesFlags (subFlags (s.get8 r) (src8Value src s) false) (src8After src s)
      (compare ((src8After src s).get8 r) (src8Value src s) false (src8After src s)) := by
  rw [src8After_get8]
  exact compare8_gives _ _ _ _

theorem compareBorrow_gives (a m : Word) (u : State) :
    GivesFlags (underExtZ u.params.extZMode (u.flag .z) (subFlags a m (u.flag .c))) u (compareBorrow a m u) :=
  givesFlags_of (subBorrow16_sets _ u.ccr a m _)

/-- The borrow, the old Z and the mode are the same before and after the operand; `a` is any word, so also a register
read after it. -/
theorem compareBorrow_src_gives (a : Word) (src : Src16) (s : State) :
    GivesFlags (underExtZ s.params.extZMode (s.flag .z) (subFlags a (src16Value src s) (s.flag .c))) (src16After src s)
      (compareBorrow a (src16Value src s) (src16After src s)) := by
  have gives := compareBorrow_gives a (src16Value src s) (src16After src s)
  rwa [src16After_flag, src16After_flag, src16After_params] at gives

/-- Settles O43: each is a compare template over what its operand leaves. -/
theorem compares : Obligations.Compares := fun s =>
  ⟨⟨_, rfl, compare8_gives s.a s.b false s⟩, fun src => ⟨_, rfl, compare8_src_gives .a src s⟩,
    fun src => ⟨_, rfl, compare8_src_gives .b src s⟩, fun _ => ⟨_, rfl, compare16_gives _ _ false _⟩,
    fun _ => ⟨_, rfl, compare16_gives _ _ false _⟩, fun _ => ⟨_, rfl, compare16_gives _ _ false _⟩,
    fun _ => ⟨_, rfl, compare16_gives _ _ false _⟩,
    fun hvariant =>
      ⟨fun src => runs_of_onHcs12x hvariant rfl (compareBorrow_src_gives _ src s),
        fun src => runs_of_onHcs12x hvariant rfl (compareBorrow_src_gives _ src s),
        fun src => runs_of_onHcs12x hvariant rfl (compareBorrow_src_gives _ src s),
        fun src => runs_of_onHcs12x hvariant rfl (compareBorrow_src_gives _ src s)⟩⟩

/-! ### Tests and bit tests (R16, R381) -/

theorem test_gives {w : Nat} (m : BitVec w) (u : State) :
    GivesFlags ((.c, false) :: logicFlags m) u (u.setCcr (testCcr u.ccr m)) :=
  givesFlags_of (testCcr_sets u.ccr m)

/-- TST: the condition codes are the same before and after the operand. -/
theorem test_memByte_gives (ea : Ea) (s : State) :
    GivesFlags ((.c, false) :: logicFlags (memByte ea s)) (afterMemByte ea s)
      ((afterMemByte ea s).setCcr (testCcr s.ccr (memByte ea s))) :=
  afterMemByte_ccr ea s ▸ test_gives (memByte ea s) (afterMemByte ea s)

theorem test_memWord_gives (ea : Ea) (s : State) :
    GivesFlags ((.c, false) :: logicFlags (memWord ea s)) (afterMemWord ea s)
      ((afterMemWord ea s).setCcr (testCcr s.ccr (memWord ea s))) :=
  afterMemWord_ccr ea s ▸ test_gives (memWord ea s) (afterMemWord ea s)

/-- N and Z of a value, V cleared and C left: BIT, once its conjunction is formed. -/
theorem bitTest_gives {w : Nat} (m : BitVec w) (u : State) :
    GivesFlags (logicFlags m) u (u.setCcr (logicCcr u.ccr m)) :=
  givesFlags_of (logicCcr_sets u.ccr m)

/-- The accumulator is the same before and after the operand. -/
theorem bitTest_src_gives (r : Reg8) (src : Src8) (s : State) :
    GivesFlags (logicFlags (s.get8 r &&& src8Value src s)) (src8After src s)
      ((src8After src s).setCcr
        (logicCcr (src8After src s).ccr ((src8After src s).get8 r &&& src8Value src s))) := by
  rw [src8After_get8]
  exact bitTest_gives _ _

/-- Settles O44: each is the flags of a value, or of a conjunction, over what its operand leaves. -/
theorem testsAndBitTests : Obligations.TestsAndBitTests := fun s =>
  ⟨fun ea => ⟨_, rfl, test_memByte_gives ea s⟩, ⟨_, rfl, test_gives s.a s⟩, ⟨_, rfl, test_gives s.b s⟩,
    fun src => ⟨_, rfl, bitTest_src_gives .a src s⟩, fun src => ⟨_, rfl, bitTest_src_gives .b src s⟩,
    fun hvariant =>
      ⟨fun ea => runs_of_onHcs12x hvariant rfl (test_memWord_gives ea s),
        runs_of_onHcs12x hvariant rfl (test_gives s.x s), runs_of_onHcs12x hvariant rfl (test_gives s.y s),
        fun _ => runs_of_onHcs12x hvariant rfl (bitTest_gives _ _),
        fun _ => runs_of_onHcs12x hvariant rfl (bitTest_gives _ _)⟩⟩

end Sys2Proof.Machine

/-! PROOFS. The logic family: AND, OR and EOR, the condition code masks, and the bits of a byte of memory (R421 to
R433, R440 to R450). -/

namespace Sys2Proof.Machine

/-! ### The logic template (R16) -/

theorem logic8_gives (r : Reg8) (op : Byte → Byte → Byte) (m : Byte) (t : State) :
    Gives8 r (op (t.get8 r) m) (logicFlags (op (t.get8 r) m)) t (logic8 r op m t) :=
  gives8_of (logicCcr_sets t.ccr _)

theorem logic16_gives (r : Reg16) (op : Word → Word → Word) (m : Word) (t : State) :
    Gives16 r (op (t.get16 r) m) (logicFlags (op (t.get16 r) m)) t (logic16 r op m t) :=
  gives16_of (logicCcr_sets t.ccr _)

/-- The accumulator is the same before and after the operand. -/
theorem logic8_src_gives (r : Reg8) (op : Byte → Byte → Byte) (src : Src8) (s : State) :
    Gives8 r (op (s.get8 r) (src8Value src s)) (logicFlags (op (s.get8 r) (src8Value src s))) (src8After src s)
      (logic8 r op (src8Value src s) (src8After src s)) :=
  src8After_get8 src s r ▸ logic8_gives r op (src8Value src s) (src8After src s)

/-- Settles O45: each is the logic template over what its operand leaves. -/
theorem logicalOperations : Obligations.LogicalOperations := fun s =>
  ⟨fun src => ⟨_, rfl, logic8_src_gives .a _ src s⟩, fun src => ⟨_, rfl, logic8_src_gives .b _ src s⟩,
    fun src => ⟨_, rfl, logic8_src_gives .a _ src s⟩, fun src => ⟨_, rfl, logic8_src_gives .b _ src s⟩,
    fun src => ⟨_, rfl, logic8_src_gives .a _ src s⟩, fun src => ⟨_, rfl, logic8_src_gives .b _ src s⟩,
    fun hvariant =>
      ⟨fun _ => runs_of_onHcs12x hvariant rfl (logic16_gives .x _ _ _),
        fun _ => runs_of_onHcs12x hvariant rfl (logic16_gives .y _ _ _),
        fun _ => runs_of_onHcs12x hvariant rfl (logic16_gives .x _ _ _),
        fun _ => runs_of_onHcs12x hvariant rfl (logic16_gives .y _ _ _),
        fun _ => runs_of_onHcs12x hvariant rfl (logic16_gives .x _ _ _),
        fun _ => runs_of_onHcs12x hvariant rfl (logic16_gives .y _ _ _)⟩⟩

/-! ### The condition code byte under a mask (R421) -/

theorem flagOf_and (k m : Byte) (f : Flag) : flagOf (k &&& m) f = (flagOf k f && flagOf m f) := BitVec.getLsbD_and

theorem flagOf_or (k m : Byte) (f : Flag) : flagOf (k ||| m) f = (flagOf k f || flagOf m f) := BitVec.getLsbD_or

/-- The mask that ORCC puts over its operand holds every flag but X. -/
theorem flagOf_orccMask (f : Flag) : flagOf 0xBF#8 f = decide (f ≠ .x) := by cases f <;> rfl

theorem flagOf_orcc (k ii : Byte) (f : Flag) :
    flagOf (k ||| (ii &&& 0xBF#8)) f = if f = .x then flagOf k .x else (flagOf k f || flagOf ii f) := by
  rw [flagOf_or, flagOf_and, flagOf_orccMask]
  split
  next hx => simp [hx]
  next hx => simp [hx]

/-- One flag written: the six aliases of ANDCC and ORCC (R442 to R447). -/
theorem withFlag_gives (f : Flag) (b : Bool) (s : State) :
    GivesFlags [(f, b)] s (s.setCcr (withFlag s.ccr f b)) :=
  givesFlags_of (sets_one s.ccr f b)

/-- Settles O47: each writes the condition code byte alone, flag by flag as its mask says. -/
theorem conditionCodeMasks : Obligations.ConditionCodeMasks := fun s =>
  ⟨fun ii => ⟨_, rfl, flagOf_and s.ccr ii, s.setCcr_unchanged _⟩,
    fun ii => ⟨_, rfl, flagOf_orcc s.ccr ii, s.setCcr_unchanged _⟩,
    ⟨_, rfl, withFlag_gives .c false s⟩, ⟨_, rfl, withFlag_gives .i false s⟩, ⟨_, rfl, withFlag_gives .v false s⟩,
    ⟨_, rfl, withFlag_gives .c true s⟩, ⟨_, rfl, withFlag_gives .i true s⟩, ⟨_, rfl, withFlag_gives .v true s⟩⟩

/-! ### Bits of a byte of memory (R448 to R450) -/

/-- `BtasFlagSource` has two values. -/
theorem btasTested_eq (s : State) (mm m : Byte) :
    btasTested s mm m = if s.params.btasFlagSource = .operand then m else m &&& mm := by
  unfold btasTested
  cases s.params.btasFlagSource <;> rfl

/-- Settles O48: each replaces the byte by its bits under the mask, with N and Z of the byte that the rule names. -/
theorem memoryBitInstructions : Obligations.MemoryBitInstructions := by
  intro s hinv
  have btasFlags (mm m : Byte) : Ccr.Sets (logicFlags (if s.params.btasFlagSource = .operand then m else m &&& mm))
      s.ccr (logicCcr s.ccr (btasTested s mm m)) := btasTested_eq s mm m ▸ logicCcr_sets s.ccr _
  exact ⟨fun ea mm => ⟨_, rfl, modify8_becomes hinv ea rfl fun m => logicCcr_sets s.ccr (m &&& ~~~mm)⟩,
    fun ea mm => ⟨_, rfl, modify8_becomes hinv ea rfl fun m => logicCcr_sets s.ccr (m ||| mm)⟩,
    fun hvariant ea mm => runs_of_onHcs12x hvariant rfl (modify8_becomes hinv ea rfl (btasFlags mm))⟩

end Sys2Proof.Machine

/-! PROOFS. The shift and rotate family: every form replaces its operand by the operand moved by one bit, with the bit
shifted out in C (R471 to R510). -/

namespace Sys2Proof.Machine

/-! ### Shifts by one bit (R471) -/

/-- The operation replaces a word by `result` of it and shifts the bit `out` of it into C. -/
def IsShift {w : Nat} (op : BitVec w → Alu w) (result : BitVec w → BitVec w) (out : BitVec w → Bool) : Prop :=
  ∀ m, op m = shiftAlu (result m) (out m)

theorem isShift_aslAlu {w : Nat} : IsShift (w := w) aslAlu shiftedLeft topBit := fun m => by
  rw [aslAlu, shiftLeft_eq, msb_eq_topBit]

theorem isShift_asrAlu {w : Nat} : IsShift (w := w) asrAlu halved lowBit := fun m => by
  rw [asrAlu, sshiftRight_eq, getLsbD_zero_eq_lowBit]

theorem isShift_lsrAlu {w : Nat} : IsShift (w := w) lsrAlu shiftedRight lowBit := fun m => by
  rw [lsrAlu, shiftRight_eq, getLsbD_zero_eq_lowBit]

/-- ROL is the shift to whatever word its result is, with the top bit shifted out. -/
theorem isShift_rolAlu {w : Nat} {c : Bool} (hresult : ∀ m : BitVec w, (rolAlu m c).r = rotatedLeft c m) :
    IsShift (w := w) (rolAlu · c) (rotatedLeft c) topBit := fun m =>
  calc rolAlu m c = shiftAlu (rolAlu m c).r m.msb := rfl
    _ = shiftAlu (rotatedLeft c m) (topBit m) := by rw [hresult, msb_eq_topBit]

/-- ROR is the shift to whatever word its result is, with bit 0 shifted out. -/
theorem isShift_rorAlu {w : Nat} {c : Bool} (hresult : ∀ m : BitVec w, (rorAlu m c).r = rotatedRight c m) :
    IsShift (w := w) (rorAlu · c) (rotatedRight c) lowBit := fun m =>
  calc rorAlu m c = shiftAlu (rorAlu m c).r (m.getLsbD 0) := rfl
    _ = shiftAlu (rotatedRight c m) (lowBit m) := by rw [hresult, getLsbD_zero_eq_lowBit]

namespace IsShift

variable {s : State}

theorem result_eq {w : Nat} {op : BitVec w → Alu w} {result : BitVec w → BitVec w} {out : BitVec w → Bool}
    (h : IsShift op result out) : (fun m => (op m).r) = result := funext fun m => congrArg Alu.r (h m)

theorem sets {w : Nat} {op : BitVec w → Alu w} {result : BitVec w → BitVec w} {out : BitVec w → Bool}
    (h : IsShift op result out) (k : Byte) (m : BitVec w) :
    Ccr.Sets (shiftFlags (result m) (out m)) k (withAlu k (op m)) := h m ▸ shiftAlu_sets k (result m) (out m)

theorem byteBecomes {op : Byte → Alu 8} {result : Byte → Byte} {out : Byte → Bool} (h : IsShift op result out)
    (hinv : s.Inv) (ea : Ea) : ByteBecomes ea result (fun m => shiftFlags (result m) (out m)) s (alu8 ea op s) :=
  modify8_becomes hinv ea h.result_eq (h.sets s.ccr)

theorem wordBecomes {op : Word → Alu 16} {result : Word → Word} {out : Word → Bool} (h : IsShift op result out)
    (hinv : s.Inv) (ea : Ea) : WordBecomes ea result (fun m => shiftFlags (result m) (out m)) s (alu16 ea op s) :=
  modify16_becomes hinv ea h.result_eq (h.sets s.ccr)

theorem reg8Becomes {op : Byte → Alu 8} {result : Byte → Byte} {out : Byte → Bool} (h : IsShift op result out)
    (r : Reg8) : Reg8Becomes r result (fun m => shiftFlags (result m) (out m)) s (aluReg8 r op s) :=
  modifyReg8_becomes r h.result_eq (h.sets s.ccr)

theorem reg16Becomes {op : Word → Alu 16} {result : Word → Word} {out : Word → Bool} (h : IsShift op result out)
    (r : Reg16) : Reg16Becomes r result (fun m => shiftFlags (result m) (out m)) s (aluReg16 r op s) :=
  modifyReg16_becomes r h.result_eq (h.sets s.ccr)

end IsShift

/-- Settles O49: each is one of the five shifts of R471, carried out on its operand. -/
theorem shiftsAndRotates : Obligations.ShiftsAndRotates := by
  intro s hinv
  have asl8 := isShift_aslAlu (w := 8)
  have asr8 := isShift_asrAlu (w := 8)
  have lsr8 := isShift_lsrAlu (w := 8)
  have rol8 := isShift_rolAlu fun m => rotateLeft8_eq m (s.flag .c)
  have ror8 := isShift_rorAlu fun m => rotateRight8_eq m (s.flag .c)
  have asl16 := isShift_aslAlu (w := 16)
  have asr16 := isShift_asrAlu (w := 16)
  have lsr16 := isShift_lsrAlu (w := 16)
  have rol16 := isShift_rolAlu fun m => rotateLeft16_eq m (s.flag .c)
  have ror16 := isShift_rorAlu fun m => rotateRight16_eq m (s.flag .c)
  exact ⟨fun ea => ⟨_, rfl, asl8.byteBecomes hinv ea⟩,
    ⟨_, rfl, asl8.reg8Becomes .a⟩, ⟨_, rfl, asl8.reg8Becomes .b⟩, ⟨_, rfl, asl16.reg16Becomes .d⟩,
    fun ea => ⟨_, rfl, asl8.byteBecomes hinv ea⟩,
    ⟨_, rfl, asl8.reg8Becomes .a⟩, ⟨_, rfl, asl8.reg8Becomes .b⟩, ⟨_, rfl, asl16.reg16Becomes .d⟩,
    fun ea => ⟨_, rfl, asr8.byteBecomes hinv ea⟩,
    ⟨_, rfl, asr8.reg8Becomes .a⟩, ⟨_, rfl, asr8.reg8Becomes .b⟩,
    fun ea => ⟨_, rfl, lsr8.byteBecomes hinv ea⟩,
    ⟨_, rfl, lsr8.reg8Becomes .a⟩, ⟨_, rfl, lsr8.reg8Becomes .b⟩, ⟨_, rfl, lsr16.reg16Becomes .d⟩,
    fun ea => ⟨_, rfl, rol8.byteBecomes hinv ea⟩,
    ⟨_, rfl, rol8.reg8Becomes .a⟩, ⟨_, rfl, rol8.reg8Becomes .b⟩,
    fun ea => ⟨_, rfl, ror8.byteBecomes hinv ea⟩,
    ⟨_, rfl, ror8.reg8Becomes .a⟩, ⟨_, rfl, ror8.reg8Becomes .b⟩,
    fun hvariant =>
      ⟨fun ea => runs_of_onHcs12x hvariant rfl (asl16.wordBecomes hinv ea),
        runs_of_onHcs12x hvariant rfl (asl16.reg16Becomes .x), runs_of_onHcs12x hvariant rfl (asl16.reg16Becomes .y),
        fun ea => runs_of_onHcs12x hvariant rfl (asr16.wordBecomes hinv ea),
        runs_of_onHcs12x hvariant rfl (asr16.reg16Becomes .x), runs_of_onHcs12x hvariant rfl (asr16.reg16Becomes .y),
        fun ea => runs_of_onHcs12x hvariant rfl (lsr16.wordBecomes hinv ea),
        runs_of_onHcs12x hvariant rfl (lsr16.reg16Becomes .x), runs_of_onHcs12x hvariant rfl (lsr16.reg16Becomes .y),
        fun ea => runs_of_onHcs12x hvariant rfl (rol16.wordBecomes hinv ea),
        runs_of_onHcs12x hvariant rfl (rol16.reg16Becomes .x), runs_of_onHcs12x hvariant rfl (rol16.reg16Becomes .y),
        fun ea => runs_of_onHcs12x hvariant rfl (ror16.wordBecomes hinv ea),
        runs_of_onHcs12x hvariant rfl (ror16.reg16Becomes .x), runs_of_onHcs12x hvariant rfl (ror16.reg16Becomes .y)⟩⟩

end Sys2Proof.Machine

/-! PROOFS. The multiply and divide family: the product, the quotient and the remainder in their registers or in
memory, and the flags of each (R520 to R529). -/

namespace Sys2Proof.Machine

/-! ### The flags of the family -/

/-- A list of flags in another order. -/
theorem Ccr.Sets.perm {l m : List (Flag × Bool)} {k k' : Byte} (h : Ccr.Sets l k k') (e : l.Perm m) : Ccr.Sets m k k' :=
  sets_of_mem_iff h fun _ => e.mem_iff

theorem sets_nzc (k : Byte) (n z c : Bool) : Ccr.Sets [(.n, n), (.z, z), (.c, c)] k (withNZC k n z c) := by
  refine ⟨by simp [withNZC, withNZ], fun f hf => ?_⟩
  cases f <;> simp_all [withNZC, withNZ]

theorem sets_cvz (k : Byte) (c v z : Bool) : Ccr.Sets [(.c, c), (.v, v), (.z, z)] k (withZVC k z v c) := by
  refine ⟨by simp [withZVC], fun f hf => ?_⟩
  cases f <;> simp_all [withZVC]

/-- C, then N, Z and V: the order of `Obligations.Divisions` for a zero divisor (R524, R525, R528). -/
theorem sets_cnzv (k : Byte) (c n z v : Bool) :
    Ccr.Sets [(.c, c), (.n, n), (.z, z), (.v, v)] k (withNZVC k n z v c) :=
  (sets_nzvc k n z v c).perm (List.perm_append_comm (l₁ := [_, _, _]))

/-- C and V, then N and Z: the order of `Obligations.Divisions` for any other divisor (R524, R525, R528). -/
theorem sets_cvnz (k : Byte) (c v n z : Bool) :
    Ccr.Sets [(.c, c), (.v, v), (.n, n), (.z, z)] k (withNZVC k n z v c) :=
  ((sets_nzvc k n z v c).perm (List.perm_append_comm (l₁ := [_, _]))).perm (.swap _ _ _)

theorem sets_cv_nzOf {w : Nat} (k : Byte) (c v : Bool) (r : BitVec w) :
    Ccr.Sets ((.c, c) :: (.v, v) :: nzOf r) k (withNZVC k r.msb (r == 0#w) v c) :=
  beq_zero_eq r ▸ sets_cvnz k c v r.msb (r == 0#w)

/-- A bit as the top one of the number up to it. -/
theorem getLsbD_eq_decide {w : Nat} (r : BitVec w) (i : Nat) :
    r.getLsbD i = decide (2 ^ i ≤ r.toNat % 2 ^ (i + 1)) := by
  have := BitVec.msb_eq_decide (r.setWidth (i + 1))
  simpa [BitVec.msb_setWidth] using this

/-! ### A pair of registers: a result in D and in an index register -/

theorem State.setPair_d (s : State) (r : Reg16) (v w : Word) (k : Byte) :
    (((s.set16 r v).set16 .d w).setCcr k).d = w :=
  (s.set16 r v).get16_set16_same .d w

theorem State.setPair_unchanged (s : State) (r : Reg16) (v w : Word) (k : Byte) :
    Unchanged (Reg16.d.parts ++ r.parts ++ [.ccr]) s (((s.set16 r v).set16 .d w).setCcr k) := by
  have hr := s.set16_unchanged r v
  have hd := (s.set16 r v).set16_unchanged .d w
  have hk := ((s.set16 r v).set16 .d w).setCcr_unchanged k
  exact ((hr.mono (by simp)).trans (hd.mono (by simp))).trans (hk.mono (by simp))

/-! ### Products (R520 to R522) -/

theorem mul_gives (s : State) :
    Gives16 .d (BitVec.ofNat 16 (s.a.toNat * s.b.toNat)) [(.c, decide (128 ≤ s.a.toNat * s.b.toNat % 256))] s
      (mul s) := by
  have hbit : (BitVec.ofNat 16 (s.a.toNat * s.b.toNat)).getLsbD 7 = decide (128 ≤ s.a.toNat * s.b.toNat % 256) := by
    rw [getLsbD_eq_decide, BitVec.toNat_ofNat, decide_eq_decide]
    omega
  exact gives16_of (hbit ▸ sets_one s.ccr .c _)

/-- The flags of a 32-bit product (R521, R522). -/
theorem product32_flags (p : BitVec 32) (s : State) :
    FlagsSet [(.n, p.msb), (.z, decide (p.toNat = 0)), (.c, decide (2 ^ 15 ≤ p.toNat % 2 ^ 16))] s (product32 p s) := by
  have hc : decide (2 ^ 15 ≤ p.toNat % 2 ^ 16) = p.getLsbD 15 := (getLsbD_eq_decide p 15).symm
  rw [← beq_zero_eq, hc]
  exact sets_nzc s.ccr _ _ _

theorem product32_y (p : BitVec 32) (s : State) : (product32 p s).y = p.extractLsb' 16 16 := rfl

theorem product32_d (p : BitVec 32) (s : State) : (product32 p s).d = p.extractLsb' 0 16 := s.setPair_d .y _ _ _

theorem product32_unchanged (p : BitVec 32) (s : State) : Unchanged [.a, .b, .y, .ccr] s (product32 p s) :=
  s.setPair_unchanged .y _ _ _

theorem ofInt32_high (p : Int) : (BitVec.ofInt 32 p).extractLsb' 16 16 = BitVec.ofInt 16 (p / 65536) := by
  apply BitVec.eq_of_toNat_eq
  simp only [BitVec.extractLsb'_toNat, BitVec.toNat_ofInt, Nat.shiftRight_eq_div_pow]
  omega

theorem ofInt32_low (p : Int) : (BitVec.ofInt 32 p).extractLsb' 0 16 = BitVec.ofInt 16 p := by
  apply BitVec.eq_of_toNat_eq
  simp only [BitVec.extractLsb'_toNat, BitVec.toNat_ofInt, Nat.shiftRight_eq_div_pow]
  omega

/-- The product of two signed words needs 31 bits. -/
theorem signed_product_bounds (a b : Word) : -(2 ^ 31) ≤ a.toInt * b.toInt ∧ a.toInt * b.toInt < 2 ^ 31 := by
  have hlo := BitVec.le_toInt_mul_toInt (x := a) (y := b)
  have hhi := BitVec.toInt_mul_toInt_le (x := a) (y := b)
  omega

theorem signedProduct_toInt (a b : Word) : (signedProduct a b).toInt = a.toInt * b.toInt :=
  have ⟨hlo, hhi⟩ := signed_product_bounds a b
  BitVec.toInt_ofInt_eq_self (by decide) hlo hhi

theorem signedProduct_toNat (a b : Word) : (signedProduct a b).toNat = (a.toInt * b.toInt % 2 ^ 32).toNat :=
  BitVec.toNat_ofInt _

/-- The product of two words fits in 32 bits. -/
theorem product_lt (a b : Word) : a.toNat * b.toNat < 2 ^ 32 :=
  calc a.toNat * b.toNat < 2 ^ 16 * 2 ^ 16 := Nat.mul_lt_mul'' a.isLt b.isLt
    _ = 2 ^ 32 := rfl

theorem emul_gives (s : State) :
    let p := s.d.toNat * s.y.toNat
    let t := product32 (BitVec.ofNat 32 p) s
    t.y = BitVec.ofNat 16 (p / 65536) ∧ t.d = BitVec.ofNat 16 p ∧
      FlagsSet [(.n, decide (2 ^ 31 ≤ p)), (.z, decide (p = 0)), (.c, decide (2 ^ 15 ≤ p % 2 ^ 16))] s t ∧
      Unchanged [.a, .b, .y, .ccr] s t := by
  intro p t
  have hp : (BitVec.ofNat 32 p).toNat = p := BitVec.toNat_ofNat .. ▸ Nat.mod_eq_of_lt (product_lt s.d s.y)
  have hflags := product32_flags (BitVec.ofNat 32 p) s
  rw [BitVec.msb_eq_decide, hp] at hflags
  exact ⟨(product32_y _ s).trans (ofInt32_high p), (product32_d _ s).trans (ofInt32_low p), hflags,
    product32_unchanged _ s⟩

theorem emuls_gives (s : State) :
    let p := s.d.toInt * s.y.toInt
    let t := product32 (signedProduct s.d s.y) s
    t.y = BitVec.ofInt 16 (p / 65536) ∧ t.d = BitVec.ofInt 16 p ∧
      FlagsSet [(.n, decide (p < 0)), (.z, decide (p = 0)), (.c, decide (2 ^ 15 ≤ p % 2 ^ 16))] s t ∧
      Unchanged [.a, .b, .y, .ccr] s t := by
  intro p t
  obtain ⟨hlo, hhi⟩ := signed_product_bounds s.d s.y
  have hflags := product32_flags (signedProduct s.d s.y) s
  have hz : (signedProduct s.d s.y).toNat = 0 ↔ p = 0 := by rw [signedProduct_toNat]; omega
  have hc : 2 ^ 15 ≤ (signedProduct s.d s.y).toNat % 2 ^ 16 ↔ 2 ^ 15 ≤ p % 2 ^ 16 := by
    rw [signedProduct_toNat]; omega
  rw [BitVec.msb_eq_toInt, signedProduct_toInt, decide_eq_decide.2 hz, decide_eq_decide.2 hc] at hflags
  exact ⟨(product32_y _ s).trans (ofInt32_high p), (product32_d _ s).trans (ofInt32_low p), hflags,
    product32_unchanged _ s⟩

/-! ### EMACS (R523) -/

/-- Everything `MemWrite(addr, 4, v)` does: two words, the high one first (R83). -/
theorem State.write32_stored {u : State} (h : u.Inv) (addr : Word) (v : BitVec 32) :
    Stored (wordStores u addr (v.extractLsb' 16 16) ++
      wordStores (u.write16 addr (v.extractLsb' 16 16)) (addr + 2) (v.extractLsb' 0 16)) u (u.write32 addr v) := by
  have hmid := State.write16_inv h addr (v.extractLsb' 16 16)
  exact (State.write16_stored h.mem h.gmem _ _).append (State.write16_stored hmid.mem hmid.gmem _ _)
    (State.write16_params _ _ _) (State.write16_fresh _ _ _)

theorem State.write32_unchanged (u : State) (addr : Word) (v : BitVec 32) :
    Unchanged [.mem, .ppage, .gpage, .devices] u (u.write32 addr v) := by
  intro p hp
  cases p with
  | mem | ppage | gpage | devices => simp at hp
  | _ => simp [Part.same, State.write32]

theorem add_ofInt_eq_ofInt_add (acc : BitVec 32) (p : Int) :
    acc + BitVec.ofInt 32 p = BitVec.ofInt 32 (acc.toInt + p) := by
  rw [BitVec.ofInt_add, BitVec.ofInt_toInt]

/-- Signed overflow by the three signs. -/
theorem overflow_of_signs {w : Nat} (a b : BitVec w) :
    (a.msb == b.msb && (a + b).msb != a.msb) =
      decide (a.toInt + b.toInt < -(2 ^ (w - 1)) ∨ 2 ^ (w - 1) ≤ a.toInt + b.toInt) := by
  rw [bne, ← BitVec.saddOverflow_eq, BitVec.saddOverflow, Bool.decide_or, Bool.or_comm]

/-- The flags of an accumulation: V the signed overflow of the sum, C the carry out of bit 15. -/
theorem accumulate_sets (k : Byte) (acc : BitVec 32) (a b : Word) :
    Ccr.Sets ((.v, decide (acc.toInt + a.toInt * b.toInt < -(2 ^ 31) ∨ 2 ^ 31 ≤ acc.toInt + a.toInt * b.toInt)) ::
      (.c, decide (2 ^ 16 ≤ acc.toNat % 2 ^ 16 + (a.toInt * b.toInt % 2 ^ 16).toNat)) ::
        nzOf (acc + signedProduct a b)) k
      (withNZVC k (acc + signedProduct a b).msb (acc + signedProduct a b == 0#32)
        (acc.msb == (signedProduct a b).msb && (acc + signedProduct a b).msb != acc.msb)
        (decide (65536 ≤ acc.toNat % 65536 + (signedProduct a b).toNat % 65536))) := by
  have hcarry : (signedProduct a b).toNat % 65536 = (a.toInt * b.toInt % 2 ^ 16).toNat := by
    rw [signedProduct_toNat]; omega
  rw [overflow_of_signs, signedProduct_toInt, hcarry]
  exact (sets_cv_nzOf k _ _ _).perm (.swap _ _ _)

theorem emacs_gives {s : State} (hinv : s.Inv) (hhll : Word) :
    let v := (s.touched16 s.x).touched16 s.y
    let p := (s.read16 s.x).toInt * ((s.touched16 s.x).read16 s.y).toInt
    let acc := v.read16 hhll ++ (v.touched16 hhll).read16 (hhll + 2)
    let r := BitVec.ofInt 32 (acc.toInt + p)
    let u := (v.touched16 hhll).touched16 (hhll + 2)
    Stored (wordStores u hhll (r.extractLsb' 16 16) ++
        wordStores (u.write16 hhll (r.extractLsb' 16 16)) (hhll + 2) (r.extractLsb' 0 16)) u (emacs hhll s) ∧
      FlagsSet ((.v, decide (acc.toInt + p < -(2 ^ 31) ∨ 2 ^ 31 ≤ acc.toInt + p)) ::
        (.c, decide (2 ^ 16 ≤ acc.toNat % 2 ^ 16 + (p % 2 ^ 16).toNat)) :: nzOf r) s (emacs hhll s) ∧
      Unchanged [.ccr, .mem, .ppage, .gpage, .devices] u (emacs hhll s) := by
  intro v p acc r u
  have hr : acc + factorProduct s = r := add_ofInt_eq_ofInt_add acc p
  have hu : u.Inv := ((((Keeps.refl s).touched16 s.x).touched16 s.y).touched32 hhll).inv hinv
  have hstored := State.write32_stored hu hhll r
  rw [← hr] at hstored ⊢
  exact ⟨hstored.congr (setCcr_sameMemory _ _), accumulate_sets s.ccr acc _ _,
    ((u.write32_unchanged hhll _).mono (by simp)).trans (((u.write32 hhll _).setCcr_unchanged _).mono (by simp))⟩

/-- Settles O50: each product is exact in its width, and its flags are those of the number. -/
theorem multiplications : Obligations.Multiplications := fun s hinv =>
  ⟨⟨_, rfl, mul_gives s⟩, ⟨_, rfl, emul_gives s⟩, ⟨_, rfl, emuls_gives s⟩, fun hhll => ⟨_, rfl, emacs_gives hinv hhll⟩⟩

/-! ### EDIV and EDIVS (R524, R525) -/

/-- A zero divisor: C is set, and the other three flags have some value. -/
theorem noQuotient_zero (v : Bool) (s : State) :
    ∃ fn fz fv, FlagsSet [(.c, true), (.n, fn), (.z, fz), (.v, fv)] s (noQuotient v true s) ∧
      Unchanged [.ccr] s (noQuotient v true s) :=
  ⟨_, _, _, sets_cnzv s.ccr true _ _ v, s.setCcr_unchanged _⟩

/-- A quotient that does not fit: V is set, and N and Z have some value. -/
theorem noQuotient_overflow (s : State) :
    ∃ fn fz, FlagsSet [(.c, false), (.v, true), (.n, fn), (.z, fz)] s (noQuotient true false s) ∧
      Unchanged [.ccr] s (noQuotient true false s) :=
  ⟨_, _, sets_cvnz s.ccr false true _ _, s.setCcr_unchanged _⟩

theorem quotientYD_y (q rem : Word) (s : State) : (quotientYD q rem s).y = q := rfl

theorem quotientYD_d (q rem : Word) (s : State) : (quotientYD q rem s).d = rem := s.setPair_d .y q rem _

theorem quotientYD_flags (q rem : Word) (s : State) :
    FlagsSet ((.c, false) :: (.v, false) :: nzOf q) s (quotientYD q rem s) := sets_cv_nzOf s.ccr false false q

theorem quotientYD_unchanged (q rem : Word) (s : State) : Unchanged [.a, .b, .y, .ccr] s (quotientYD q rem s) :=
  s.setPair_unchanged .y q rem _

theorem State.dividend_toNat (s : State) : s.dividend.toNat = 65536 * s.y.toNat + s.d.toNat := by
  have hd := s.d.isLt
  rw [State.dividend, BitVec.toNat_append, ← Nat.shiftLeft_add_eq_or_of_lt hd, Nat.shiftLeft_eq]
  omega

/-- A number below 65536 is the word it is narrowed to. -/
theorem ofNat16_toNat {n : Nat} (h : n < 65536) : (BitVec.ofNat 16 n).toNat = n :=
  (BitVec.toNat_ofNat n 16).trans (Nat.mod_eq_of_lt h)

/-- A remainder by a word is a word. -/
theorem mod_word_lt (n : Nat) {d : Word} (h : d.toNat ≠ 0) : n % d.toNat < 65536 :=
  (Nat.mod_lt n (Nat.pos_of_ne_zero h)).trans d.isLt

theorem ediv_gives (s : State) :
    let n := 65536 * s.y.toNat + s.d.toNat
    let d := s.x.toNat
    let t := ediv s
    (d = 0 → ∃ fn fz fv, FlagsSet [(.c, true), (.n, fn), (.z, fz), (.v, fv)] s t ∧ Unchanged [.ccr] s t) ∧
    (d ≠ 0 → 65535 < n / d →
      ∃ fn fz, FlagsSet [(.c, false), (.v, true), (.n, fn), (.z, fz)] s t ∧ Unchanged [.ccr] s t) ∧
    (d ≠ 0 → n / d ≤ 65535 → t.y.toNat = n / d ∧ t.d.toNat = n % d ∧
      FlagsSet ((.c, false) :: (.v, false) :: nzOf t.y) s t ∧ Unchanged [.a, .b, .y, .ccr] s t) := by
  simp only [ediv, State.dividend_toNat]
  refine ⟨fun hzero => ?_, fun hne hbig => ?_, fun hne hfits => ?_⟩
  · rw [if_pos hzero]
    exact noQuotient_zero _ s
  · rw [if_neg hne, if_pos hbig]
    exact noQuotient_overflow s
  · rw [if_neg hne, if_neg (Nat.not_lt.2 hfits), quotientYD_y, quotientYD_d]
    exact ⟨ofNat16_toNat (Nat.lt_succ_of_le hfits), ofNat16_toNat (mod_word_lt _ hne), quotientYD_flags _ _ s,
      quotientYD_unchanged _ _ s⟩

/-- A signed remainder by a word is a signed word: it is smaller than the divisor. -/
theorem tmod_word_toInt (n : Int) {d : Word} (h : d.toInt ≠ 0) :
    (BitVec.ofInt 16 (n.tmod d.toInt)).toInt = n - n.tdiv d.toInt * d.toInt := by
  have hlo := d.le_toInt
  have hhi := d.toInt_lt
  have hlt : (n.tmod d.toInt).natAbs < d.toInt.natAbs := by
    rw [Int.natAbs_tmod]
    exact Nat.mod_lt _ (Int.natAbs_pos.2 h)
  rw [BitVec.toInt_ofInt_eq_self (by decide) (by omega) (by omega), Int.tmod_def, Int.mul_comm]

theorem edivs_gives (s : State) :
    let n := s.dividend.toInt
    let d := s.x.toInt
    let t := edivs s
    (d = 0 → ∃ fn fz fv, FlagsSet [(.c, true), (.n, fn), (.z, fz), (.v, fv)] s t ∧ Unchanged [.ccr] s t) ∧
    (d ≠ 0 → 32767 < n.tdiv d ∨ n.tdiv d < -32768 →
      ∃ fn fz, FlagsSet [(.c, false), (.v, true), (.n, fn), (.z, fz)] s t ∧ Unchanged [.ccr] s t) ∧
    (d ≠ 0 → -32768 ≤ n.tdiv d → n.tdiv d ≤ 32767 → t.y.toInt = n.tdiv d ∧ t.d.toInt = n - n.tdiv d * d ∧
      FlagsSet ((.c, false) :: (.v, false) :: nzOf t.y) s t ∧ Unchanged [.a, .b, .y, .ccr] s t) := by
  simp only [edivs]
  refine ⟨fun hzero => ?_, fun hne hbig => ?_, fun hne hlo hhi => ?_⟩
  · rw [if_pos hzero]
    exact noQuotient_zero _ s
  · rw [if_neg hne, if_pos hbig]
    exact noQuotient_overflow s
  · rw [if_neg hne, if_neg (by omega), quotientYD_y, quotientYD_d]
    exact ⟨BitVec.toInt_ofInt_eq_self (by decide) hlo (by omega), tmod_word_toInt _ hne, quotientYD_flags _ _ s,
      quotientYD_unchanged _ _ s⟩

/-! ### FDIV, IDIV and IDIVS (R526 to R528) -/

theorem saturated_x (v c : Bool) (s : State) : (saturated v c s).x = 0xFFFF#16 := rfl

theorem saturated_flags (v c : Bool) (s : State) : FlagsSet [(.c, c), (.v, v), (.z, false)] s (saturated v c s) :=
  sets_cvz s.ccr c v false

theorem saturated_unchanged (v c : Bool) (s : State) : Unchanged [.a, .b, .x, .ccr] s (saturated v c s) :=
  s.setPair_unchanged .x _ _ _

theorem quotientXD_unchanged (q rem : Word) (s : State) : Unchanged [.a, .b, .x, .ccr] s (quotientXD q rem s) :=
  s.setPair_unchanged .x q rem _

/-- A quotient and a remainder that are words. -/
theorem quotientXD_gives {q rem : Nat} (hq : q < 65536) (hrem : rem < 65536) (s : State) :
    let t := quotientXD (BitVec.ofNat 16 q) (BitVec.ofNat 16 rem) s
    t.x.toNat = q ∧ t.d.toNat = rem ∧ FlagsSet [(.c, false), (.v, false), (.z, decide (q = 0))] s t := by
  have hz : (BitVec.ofNat 16 q == 0#16) = decide (q = 0) := by rw [beq_zero_eq, ofNat16_toNat hq]
  have hd : (quotientXD (BitVec.ofNat 16 q) (BitVec.ofNat 16 rem) s).d = BitVec.ofNat 16 rem := s.setPair_d .x _ _ _
  exact ⟨ofNat16_toNat hq, (congrArg BitVec.toNat hd).trans (ofNat16_toNat hrem), hz ▸ sets_cvz s.ccr false false _⟩

theorem fdiv_gives (s : State) :
    let n := s.d.toNat
    let d := s.x.toNat
    let t := fdiv s
    Unchanged [.a, .b, .x, .ccr] s t ∧
    (d ≤ n → t.x = 0xFFFF#16 ∧ FlagsSet [(.c, decide (d = 0)), (.v, true), (.z, false)] s t) ∧
    (n < d → t.x.toNat = n * 65536 / d ∧ t.d.toNat = n * 65536 % d ∧
      FlagsSet [(.c, false), (.v, false), (.z, decide (n * 65536 / d = 0))] s t) := by
  simp only [fdiv]
  refine ⟨?_, fun hle => ?_, fun hlt => ?_⟩
  · split
    · exact saturated_unchanged _ _ s
    · split
      · exact saturated_unchanged _ _ s
      · exact quotientXD_unchanged _ _ s
  · by_cases hzero : s.x.toNat = 0
    · rw [if_pos hzero, decide_eq_true hzero]
      exact ⟨saturated_x _ _ s, saturated_flags _ _ s⟩
    · rw [if_neg hzero, if_pos hle, decide_eq_false hzero]
      exact ⟨saturated_x _ _ s, saturated_flags _ _ s⟩
  · have hne : s.x.toNat ≠ 0 := Nat.ne_zero_of_lt hlt
    have hq : s.d.toNat * 65536 / s.x.toNat < 65536 := (Nat.div_lt_iff_lt_mul (by omega)).2 (by omega)
    rw [if_neg hne, if_neg (Nat.not_le.2 hlt)]
    exact quotientXD_gives hq (mod_word_lt _ hne) s

theorem idiv_gives (s : State) :
    let n := s.d.toNat
    let d := s.x.toNat
    let t := idiv s
    Unchanged [.a, .b, .x, .ccr] s t ∧
    (d = 0 → t.x = 0xFFFF#16 ∧ FlagsSet [(.c, true), (.v, false), (.z, false)] s t) ∧
    (d ≠ 0 → t.x.toNat = n / d ∧ t.d.toNat = n % d ∧
      FlagsSet [(.c, false), (.v, false), (.z, decide (n / d = 0))] s t) := by
  simp only [idiv]
  refine ⟨?_, fun hzero => ?_, fun hne => ?_⟩
  · split
    · exact saturated_unchanged _ _ s
    · exact quotientXD_unchanged _ _ s
  · rw [if_pos hzero]
    exact ⟨saturated_x _ _ s, saturated_flags _ _ s⟩
  · rw [if_neg hne]
    exact quotientXD_gives ((Nat.div_le_self _ _).trans_lt s.d.isLt) (mod_word_lt _ hne) s

/-- IDIVS: no quotient is too large but −32768 ÷ −1, which V tells. -/
theorem idivs_gives (s : State) :
    let n := s.d.toInt
    let d := s.x.toInt
    let t := idivs s
    Unchanged [.a, .b, .x, .ccr] s t ∧
    (d = 0 → ∃ fn fz fv, FlagsSet [(.c, true), (.n, fn), (.z, fz), (.v, fv)] s t) ∧
    (d ≠ 0 → t.x = BitVec.ofInt 16 (n.tdiv d) ∧ t.d.toInt = n - n.tdiv d * d ∧
      FlagsSet ((.c, false) :: (.v, decide (32767 < n.tdiv d)) :: nzOf t.x) s t) := by
  simp only [idivs]
  refine ⟨?_, fun hzero => ?_, fun hne => ?_⟩
  · split <;> exact s.setPair_unchanged .x _ _ _
  · rw [if_pos hzero]
    exact ⟨_, _, _, sets_cnzv s.ccr true _ _ _⟩
  · rw [if_neg hne, State.setPair_d]
    exact ⟨rfl, tmod_word_toInt _ hne, sets_cv_nzOf s.ccr false _ _⟩

/-- Settles O51: each division branch by branch, with the quotient and the remainder in range where it is done. -/
theorem divisions : Obligations.Divisions := fun s =>
  ⟨⟨_, rfl, ediv_gives s⟩, ⟨_, rfl, edivs_gives s⟩, ⟨_, rfl, fdiv_gives s⟩, ⟨_, rfl, idiv_gives s⟩,
    ⟨_, rfl, idivs_gives s⟩⟩

end Sys2Proof.Machine

/-! PROOFS. The branch family: branches, loop primitives, jumps, calls and returns (R570 to R623). -/

namespace Sys2Proof.Machine

/-! ### A branch (R570 to R572) -/

/-- By whether the branch is taken. -/
theorem branchIf_branches (cond : Bool) (target : Word) (u : State) :
    Branches cond target u (branchIf cond target u) := by
  have hrest : Unchanged [.pc, .refilled] u (branchIf cond target u) := by
    cases cond with
    | false => exact Unchanged.refl _ u
    | true =>
      intro p hp
      cases p with
      | pc | refilled => simp at hp
      | _ => rfl
  exact ⟨by cases cond <;> rfl, by cases cond <;> rfl, hrest, (hrest.sameMemory (by simp)).readsAsBefore⟩

theorem relTarget8_eq (rr : Byte) (s : State) : relTarget8 rr s = relative s rr := add_signExtend s.pc rr

theorem relTarget16_eq (qqrr : Word) (s : State) : relTarget16 qqrr s = relative s qqrr := add_signed s.pc qqrr

theorem relTarget9_eq (off : BitVec 9) (s : State) : relTarget9 off s = relative s off := add_signExtend s.pc off

/-- A branch instruction whose condition and target are written in another way. -/
theorem runs_branchIf {i : Instr} {s u : State} {cond cond' : Bool} {target target' : Word}
    (hexec : exec i s = .next (branchIf cond' target' u)) (hcond : cond' = cond) (htarget : target' = target) :
    Runs i s (Branches cond target u) :=
  ⟨_, hexec, hcond ▸ htarget ▸ branchIf_branches cond' target' u⟩

/-! ### The conditions of the signed and unsigned comparisons (R573) -/

theorem not_lessSigned (s : State) : (!lessSigned s) = (s.flag .n == s.flag .v) := by
  rw [lessSigned, bne, Bool.not_not]

theorem not_z_or_lessSigned (s : State) :
    (!(s.flag .z || lessSigned s)) = (!s.flag .z && s.flag .n == s.flag .v) := by
  rw [Bool.not_or, not_lessSigned]

/-- Settles O57: each branch is `branchIf` under its condition, and a long one differs from a short one by its offset
alone. -/
theorem conditionalBranches : Obligations.ConditionalBranches := by
  intro s rr qqrr
  have short := relTarget8_eq rr s
  have long := relTarget16_eq qqrr s
  have ge := not_lessSigned s
  have gt := not_z_or_lessSigned s
  have hi : (!(s.flag .c || s.flag .z)) = (!s.flag .c && !s.flag .z) := Bool.not_or ..
  exact ⟨runs_branchIf rfl rfl short, runs_branchIf rfl rfl short, runs_branchIf rfl rfl short,
    runs_branchIf rfl ge short, runs_branchIf rfl gt short, runs_branchIf rfl hi short, runs_branchIf rfl rfl short,
    runs_branchIf rfl rfl short, runs_branchIf rfl rfl short, runs_branchIf rfl rfl short, runs_branchIf rfl rfl short,
    runs_branchIf rfl rfl short, runs_branchIf rfl rfl short, runs_branchIf rfl rfl short, runs_branchIf rfl rfl short,
    runs_branchIf rfl rfl short, runs_branchIf rfl rfl short, runs_branchIf rfl rfl short,
    runs_branchIf rfl rfl long, runs_branchIf rfl rfl long, runs_branchIf rfl rfl long,
    runs_branchIf rfl ge long, runs_branchIf rfl gt long, runs_branchIf rfl hi long, runs_branchIf rfl rfl long,
    runs_branchIf rfl rfl long, runs_branchIf rfl rfl long, runs_branchIf rfl rfl long, runs_branchIf rfl rfl long,
    runs_branchIf rfl rfl long, runs_branchIf rfl rfl long, runs_branchIf rfl rfl long, runs_branchIf rfl rfl long,
    runs_branchIf rfl rfl long, runs_branchIf rfl rfl long, runs_branchIf rfl rfl long⟩

/-! ### Bit-conditional branches (R610, R611) -/

/-- A byte under a mask is zero when every bit of the mask is clear in it. -/
theorem and_mask_beq_zero (m mask : Byte) :
    (m &&& mask == 0) = decide (∀ k : Fin 8, mask.getLsbD k = true → m.getLsbD k = false) := by
  rw [Bool.eq_iff_iff, beq_iff_eq, decide_eq_true_eq]
  refine ⟨fun h k hk => ?_, fun h => BitVec.eq_of_getLsbD_eq fun k hk => ?_⟩
  · have hbit : (m &&& mask).getLsbD k = false := by simp [h]
    rwa [BitVec.getLsbD_and, hk, Bool.and_true] at hbit
  · cases hmask : mask.getLsbD k with
    | false => simp [hmask]
    | true => simp [h ⟨k, hk⟩ hmask]

/-- Every bit of the mask is set in a byte when it is clear in the complement. -/
theorem not_and_mask_beq_zero (m mask : Byte) :
    (~~~m &&& mask == 0) = decide (∀ k : Fin 8, mask.getLsbD k = true → m.getLsbD k = true) := by
  rw [and_mask_beq_zero, decide_eq_decide]
  exact forall_congr' fun k => by simp

/-- Settles O58: the bits of the mask are tested in the byte or in its complement. -/
theorem branchesOnMemoryBits : Obligations.BranchesOnMemoryBits := fun s ea mm rr =>
  ⟨runs_branchIf rfl (and_mask_beq_zero (memByte ea s) mm) (relTarget8_eq rr s),
    runs_branchIf rfl (not_and_mask_beq_zero (memByte ea s) mm) (relTarget8_eq rr s)⟩

/-! ### Loop primitives (R612 to R617) -/

/-- A signed number added to a word, modulo its width. -/
theorem toNat_add_ofInt {w : Nat} (v : BitVec w) (n : Int) (k : Nat) (hk : (k : Int) % 2 ^ w = n % 2 ^ w) :
    (v + BitVec.ofInt w n).toNat = (v.toNat + k) % 2 ^ w := by
  have hn : BitVec.ofInt w n = BitVec.ofNat w k := by
    apply BitVec.eq_of_toNat_eq
    rw [BitVec.toNat_ofInt, BitVec.toNat_ofNat, Nat.cast_pow, Nat.cast_two, ← hk]
    exact_mod_cast Int.toNat_natCast (k % 2 ^ w)
  rw [hn, BitVec.toNat_add, BitVec.toNat_ofNat, Nat.add_mod_mod]

/-- The counter after `n` is added, `k` being `n` modulo its width. -/
theorem loopValue_counterAdd (r : LoopReg) (s : State) {n : Int} {k : Nat}
    (hk : (k : Int) % 2 ^ loopWidth r = n % 2 ^ loopWidth r) :
    loopValue r (counterAdd r n s) = (loopValue r s + k) % 2 ^ loopWidth r := by
  cases r with
  | a => exact toNat_add_ofInt s.a n k hk
  | b => exact toNat_add_ofInt s.b n k hk
  | d => exact (congrArg BitVec.toNat (s.get16_set16_same .d _)).trans (toNat_add_ofInt s.d n k hk)
  | x => exact toNat_add_ofInt s.x n k hk
  | y => exact toNat_add_ofInt s.y n k hk
  | sp => exact toNat_add_ofInt s.sp n k hk

theorem loopValue_lt (r : LoopReg) (s : State) : loopValue r s < 2 ^ loopWidth r := by
  cases r <;> exact BitVec.isLt _

theorem counterZero_eq (r : LoopReg) (s : State) : counterZero r s = decide (loopValue r s = 0) := by
  cases r <;> exact beq_zero_eq _

theorem counterAdd_unchanged (r : LoopReg) (n : Int) (s : State) : Unchanged (loopParts r) s (counterAdd r n s) := by
  cases r with
  | a => exact s.set8_unchanged .a _
  | b => exact s.set8_unchanged .b _
  | d => exact s.set16_unchanged .d _
  | x => exact s.set16_unchanged .x _
  | y => exact s.set16_unchanged .y _
  | sp => exact s.set16_unchanged .sp _

/-- A branch that changes PC alone leaves the counter. -/
theorem loopValue_congr {except : List Part} (r : LoopReg) {u t : State} (h : Unchanged except u t)
    (hex : ∀ p ∈ [Part.a, .b, .x, .y, .sp], p ∉ except) : loopValue r t = loopValue r u := by
  have ha : t.a = u.a := h .a (hex _ (by simp))
  have hb : t.b = u.b := h .b (hex _ (by simp))
  have hx : t.x = u.x := h .x (hex _ (by simp))
  have hy : t.y = u.y := h .y (hex _ (by simp))
  have hsp : t.sp = u.sp := h .sp (hex _ (by simp))
  cases r <;> simp only [loopValue, State.d, ha, hb, hx, hy, hsp]

/-- The counter is changed, then the branch is made. -/
theorem branchIf_counterAdd_loops {r : LoopReg} {n : Int} {count : Nat} (cond : Bool) (off : BitVec 9) {s : State}
    (hcount : loopValue r (counterAdd r n s) = count) :
    Loops r count cond off s (branchIf cond (relTarget9 off s) (counterAdd r n s)) := by
  have hadd := counterAdd_unchanged r n s
  have hbranch := branchIf_branches cond (relTarget9 off s) (counterAdd r n s)
  have hrest : Unchanged (.pc :: .refilled :: loopParts r) s
      (branchIf cond (relTarget9 off s) (counterAdd r n s)) :=
    (hadd.mono (by simp)).trans (hbranch.rest.mono (by simp))
  have hpc : (counterAdd r n s).pc = s.pc := hadd .pc (by cases r <;> decide)
  have hrefilled : (counterAdd r n s).refilled = s.refilled := hadd .refilled (by cases r <;> decide)
  refine ⟨(loopValue_congr r hbranch.rest (by simp)).trans hcount, ?_, ?_, hrest,
    (hrest.sameMemory (by cases r <;> decide)).readsAsBefore⟩
  · rw [hbranch.pc, hpc, relTarget9_eq]
  · rw [hbranch.refilled, hrefilled]

/-- The primitives that branch on a counter of zero. -/
theorem runs_loop_zero {i : Instr} {r : LoopReg} {n : Int} {count : Nat} {off : BitVec 9} {s : State}
    (hexec : exec i s =
      .next (branchIf (counterZero r (counterAdd r n s)) (relTarget9 off s) (counterAdd r n s)))
    (hcount : loopValue r (counterAdd r n s) = count) : Runs i s (Loops r count (decide (count = 0)) off s) := by
  rw [counterZero_eq, hcount] at hexec
  exact ⟨_, hexec, branchIf_counterAdd_loops _ off hcount⟩

/-- The primitives that branch on a counter other than zero. -/
theorem runs_loop_nonzero {i : Instr} {r : LoopReg} {n : Int} {count : Nat} {off : BitVec 9} {s : State}
    (hexec : exec i s =
      .next (branchIf (!counterZero r (counterAdd r n s)) (relTarget9 off s) (counterAdd r n s)))
    (hcount : loopValue r (counterAdd r n s) = count) : Runs i s (Loops r count (decide (count ≠ 0)) off s) := by
  rw [counterZero_eq, hcount, ← decide_not] at hexec
  exact ⟨_, hexec, branchIf_counterAdd_loops _ off hcount⟩

/-- Settles O59: a decrement is the addition of one less than 2^w, a test the addition of zero. -/
theorem loopPrimitives : Obligations.LoopPrimitives := by
  intro s r off down up
  have hdown : loopValue r (counterAdd r (-1) s) = down :=
    loopValue_counterAdd r s (by cases r <;> rfl)
  have hup : loopValue r (counterAdd r 1 s) = up := loopValue_counterAdd r s rfl
  have hsame : loopValue r (counterAdd r 0 s) = loopValue r s :=
    (loopValue_counterAdd r s (k := 0) rfl).trans (Nat.mod_eq_of_lt (loopValue_lt r s))
  exact ⟨runs_loop_zero rfl hdown, runs_loop_nonzero rfl hdown, runs_loop_zero rfl hup, runs_loop_nonzero rfl hup,
    runs_loop_zero rfl hsame, runs_loop_nonzero rfl hsame⟩

/-! ### Jumps, calls and returns (R618 to R623) -/

theorem State.jump_unchanged (s : State) (target : Word) : Unchanged [.pc, .refilled] s (s.jump target) :=
  (branchIf_branches true target s).rest

/-- PPAGE given its new page. -/
theorem State.withPpage_unchanged (s : State) (page : Byte) : Unchanged [.ppage] s { s with ppage := page } := by
  intro p hp
  cases p with
  | ppage => simp at hp
  | _ => rfl

/-- The two pushes of CALL and its jump, over the state that its operand leaves. -/
theorem callTo_gives {v : State} (hinv : v.Inv) (page : Byte) (target : Word) :
    ∃ m u, Pushes 2 (wordStores v (v.sp - 2) v.pc) v m ∧ Pushes 1 [(m.place (m.sp - 1), m.ppage)] m u ∧
      (callTo page target v).refilled = true ∧ Unchanged [.pc, .ppage, .refilled] u (callTo page target v) ∧
      (callTo page target v).pc = target ∧ (callTo page target v).ppage = page := by
  have hm := State.push16_inv hinv v.pc
  refine ⟨v.push16 v.pc, _, push16_pushes hinv.mem hinv.gmem v.pc, push8_pushes hm.mem hm.gmem _, rfl, ?_, rfl, rfl⟩
  exact ((State.jump_unchanged _ target).mono (by simp)).trans ((State.withPpage_unchanged _ page).mono (by simp))

/-- A pull of PC (R621, R622). -/
theorem State.pulled16_jump_gives (m : State) :
    (m.pulled16.jump m.top16).pc = m.read16 m.sp ∧ (m.pulled16.jump m.top16).sp = m.sp + 2 ∧
      (m.pulled16.jump m.top16).refilled = true ∧
      Unchanged [.pc, .sp, .refilled] (m.touched16 m.sp) (m.pulled16.jump m.top16) := by
  obtain ⟨hsp, hrest, -⟩ := pulled16_rest (m.pulled16.jump_unchanged m.top16) (by decide)
  exact ⟨rfl, hsp, rfl, hrest.mono (by simp)⟩

/-- The same read leaves two states that differ in other pieces of state different in those alone. -/
theorem Unchanged.touched16 {parts : List Part} {s t : State} (h : Unchanged parts s t)
    (hparts : ∀ p ∈ [Part.mem, .gmem, .devices, .ppage, .gpage, .fresh, .params], p ∉ parts) (addr : Word) :
    Unchanged parts (s.touched16 addr) (t.touched16 addr) := by
  have hmem := (h.sameMemory hparts).touched16 addr
  intro p hp
  have hsame := h p hp
  cases p with
  | devices => exact hmem.devices
  | _ => simpa [Part.same] using hsame

theorem Unchanged.touched8 {parts : List Part} {s t : State} (h : Unchanged parts s t)
    (hparts : ∀ p ∈ [Part.mem, .gmem, .devices, .ppage, .gpage, .fresh, .params], p ∉ parts) (addr : Word) :
    Unchanged parts (s.touched8 addr) (t.touched8 addr) := by
  have hmem := (h.sameMemory hparts).touched8 addr
  intro p hp
  have hsame := h p hp
  cases p with
  | devices => exact hmem.devices
  | _ => simpa [Part.same] using hsame

/-- RTC: PC is pulled with the page that was pulled before it (R621). -/
theorem rtc_gives (s : State) :
    let u := { s.touched8 s.sp with ppage := s.read8 s.sp }
    (rtc s).pc = u.read16 (s.sp + 1) ∧ (rtc s).sp = s.sp + 3 ∧ (rtc s).refilled = true ∧
      Unchanged [.pc, .sp, .refilled] (u.touched16 (s.sp + 1)) (rtc s) := by
  intro u
  let m : State := { s.pulled8 with ppage := s.top8 }
  have hum : Unchanged [.sp] u m := fun p hp => by
    cases p with
    | sp => simp at hp
    | _ => rfl
  have hsp : m.sp = s.sp + 1 := s.pulled8_sp
  obtain ⟨hpc, hsp', hrefilled, hrest⟩ := m.pulled16_jump_gives
  rw [hsp] at hpc hsp' hrest
  refine ⟨hpc.trans ((hum.sameMemory (by simp)).read16 _), hsp'.trans (by bv_omega), hrefilled, ?_⟩
  exact ((hum.touched16 (by simp) _).mono (by simp)).trans hrest

/-- Settles O60: pushes and pulls around a jump, over the state that the operand leaves. -/
theorem jumpsCallsAndReturns : Obligations.JumpsCallsAndReturns := by
  intro s hinv
  refine ⟨fun ea => ⟨_, rfl, branchIf_branches true _ _⟩, fun rr => ⟨_, rfl, _, push16_pushes hinv.mem hinv.gmem s.pc,
    relTarget8_eq rr s, rfl, State.jump_unchanged _ _⟩, fun ea => ⟨_, rfl, ?jsr⟩, ⟨_, rfl, s.pulled16_jump_gives⟩,
    fun op => ⟨_, rfl, ?call⟩, ⟨_, rfl, rtc_gives s⟩⟩
  case jsr =>
    have hready := eaAfter_inv hinv ea
    exact ⟨_, push16_pushes hready.mem hready.gmem s.pc, rfl, rfl, State.jump_unchanged _ _⟩
  case call =>
    cases op with
    | direct ea pg =>
      obtain ⟨m, u, hword, hpage, hrefilled, hrest, hpc, hppage⟩ :=
        callTo_gives (eaAfter_inv hinv ea) pg (eaAddress ea s)
      rw [eaAfter_pc] at hword
      exact ⟨m, u, hword, hpage, hrefilled, hrest, hpc, hppage⟩
    | indirect xb =>
      have hready := (((Keeps.refl s).touched16 (indexedAddress xb s)).touched8 (indexedAddress xb s + 2)).inv hinv
      obtain ⟨m, u, hword, hpage, hrefilled, hrest, hpc, hppage⟩ := callTo_gives hready
        ((s.touched16 (indexedAddress xb s)).read8 (indexedAddress xb s + 2)) (s.read16 (indexedAddress xb s))
      rw [State.touched8_pc, State.touched16_pc] at hword
      exact ⟨m, u, hword, hpage, hrefilled, hrest, hpc, hppage⟩

end Sys2Proof.Machine

/-! PROOFS. The minimum, maximum and table family: extrema, interpolation and the grade of MEM (R540 to R562). -/

namespace Sys2Proof.Machine

/-! ### The larger and the smaller of two unsigned values (R548) -/

theorem max8_eq_ofNat (p q : Byte) : max8 p q = BitVec.ofNat 8 (max p.toNat q.toNat) := by
  rw [← max8_toNat, Byte.ofNat_toNat]

theorem min8_eq_ofNat (p q : Byte) : min8 p q = BitVec.ofNat 8 (min p.toNat q.toNat) := by
  rw [← min8_toNat, Byte.ofNat_toNat]

theorem max16_eq_ofNat (p q : Word) : max16 p q = BitVec.ofNat 16 (max p.toNat q.toNat) := by
  have h : (max16 p q).toNat = max p.toNat q.toNat := by
    unfold max16
    split <;> omega
  rw [← h, BitVec.ofNat_toNat, BitVec.setWidth_eq]

theorem min16_eq_ofNat (p q : Word) : min16 p q = BitVec.ofNat 16 (min p.toNat q.toNat) := by
  have h : (min16 p q).toNat = min p.toNat q.toNat := by
    unfold min16
    split <;> omega
  rw [← h, BitVec.ofNat_toNat, BitVec.setWidth_eq]

/-! ### The extremum in a register or in memory (R540 to R547) -/

/-- A register written with its flags, over an operand that leaves the condition codes. -/
theorem gives8_of_ccr {r : Reg8} {v old k : Byte} {flags : List (Flag × Bool)} {u : State} (hccr : u.ccr = old)
    (h : Ccr.Sets flags old k) : Gives8 r v flags u ((u.set8 r v).setCcr k) :=
  gives8_of (hccr.symm ▸ h)

theorem gives16_of_ccr {r : Reg16} {v : Word} {old k : Byte} {flags : List (Flag × Bool)} {u : State}
    (hccr : u.ccr = old) (h : Ccr.Sets flags old k) : Gives16 r v flags u ((u.set16 r v).setCcr k) :=
  gives16_of (hccr.symm ▸ h)

section Extremum

variable {s : State} (xb : Xb)

theorem extremum8_gives {pick : Byte → Byte → Byte} {v : Byte} (hpick : pick s.a (memByte (.idx xb) s) = v) :
    Gives8 .a v (subFlags s.a (memByte (.idx xb) s) false) (afterMemByte (.idx xb) s) (extremum8 xb pick s) := by
  subst hpick
  exact gives8_of_ccr (afterMemByte_ccr (.idx xb) s) (sub8_sets s.ccr s.a _ false)

theorem extremum16_gives {pick : Word → Word → Word} {v : Word} (hpick : pick s.d (memWord (.idx xb) s) = v) :
    Gives16 .d v (subFlags s.d (memWord (.idx xb) s) false) (afterMemWord (.idx xb) s) (extremum16 xb pick s) := by
  subst hpick
  exact gives16_of_ccr (afterMemWord_ccr (.idx xb) s) (sub16_sets s.ccr s.d _ false)

theorem extremumMem8_becomes (hinv : s.Inv) {pick : Byte → Byte → Byte} {result : Byte → Byte}
    (hpick : ∀ m, pick s.a m = result m) :
    ByteBecomes (.idx xb) result (subFlags s.a · false) s (extremumMem8 xb pick s) :=
  modify8_becomes hinv _ (funext hpick) fun m => sub8_sets s.ccr s.a m false

theorem extremumMem16_becomes (hinv : s.Inv) {pick : Word → Word → Word} {result : Word → Word}
    (hpick : ∀ m, pick s.d m = result m) :
    WordBecomes (.idx xb) result (subFlags s.d · false) s (extremumMem16 xb pick s) :=
  modify16_becomes hinv _ (funext hpick) fun m => sub16_sets s.ccr s.d m false

end Extremum

/-- Settles O52: the extremum goes to the register or to the operand's place, the flags are those of a compare. -/
theorem minimaAndMaxima : Obligations.MinimaAndMaxima := fun s hinv =>
  ⟨fun xb => ⟨_, rfl, extremum8_gives xb (max8_eq_ofNat s.a _)⟩,
    fun xb => ⟨_, rfl, extremum8_gives xb (min8_eq_ofNat s.a _)⟩,
    fun xb => ⟨_, rfl, extremumMem8_becomes xb hinv (max8_eq_ofNat s.a)⟩,
    fun xb => ⟨_, rfl, extremumMem8_becomes xb hinv (min8_eq_ofNat s.a)⟩,
    fun xb => ⟨_, rfl, extremum16_gives xb (max16_eq_ofNat s.d _)⟩,
    fun xb => ⟨_, rfl, extremum16_gives xb (min16_eq_ofNat s.d _)⟩,
    fun xb => ⟨_, rfl, extremumMem16_becomes xb hinv (max16_eq_ofNat s.d)⟩,
    fun xb => ⟨_, rfl, extremumMem16_becomes xb hinv (min16_eq_ofNat s.d)⟩⟩

/-! ### Interpolation in a table (R550, R551) -/

/-- A division by 256 rounds down, also that of a descending pair. -/
theorem interpolated_eq (b : Byte) (y1 y2 : Nat) :
    interpolated b y1 y2 = (y1 : Int) + b.toNat * ((y2 : Int) - y1) / 256 := by
  rw [interpolated, tableProduct, Int.fdiv_eq_ediv_of_nonneg _ (by omega)]

theorem fractionBit_eq (b : Byte) (y1 y2 : Nat) :
    fractionBit b y1 y2 = decide (128 ≤ b.toNat * ((y2 : Int) - y1) % 256) := by
  rw [fractionBit, getLsbD_eq_decide, BitVec.toNat_ofInt, decide_eq_decide, tableProduct]
  omega

theorem tableCcr_sets {w : Nat} (k : Byte) (r : BitVec w) (c : Bool) :
    Ccr.Sets ((.c, c) :: nzOf r) k (tableCcr k r c) := by
  have hsets : Ccr.Sets [(.c, c), (.n, r.msb), (.z, r == 0#w)] k (tableCcr k r c) := by
    refine ⟨by simp [tableCcr, withNZ], fun f hf => ?_⟩
    cases f <;> simp_all [tableCcr, withNZ]
  rwa [beq_zero_eq] at hsets

theorem tbl_gives (xb : Xb) (s : State) :
    let u := xbAfter xb s
    let y1 : Int := (u.read8 (xbAddress xb s)).toNat
    let y2 : Int := (u.read8 (xbAddress xb s + 1)).toNat
    let p := s.b.toNat * (y2 - y1)
    let r := BitVec.ofInt 8 (y1 + p / 256)
    Gives8 .a r ((.c, decide (128 ≤ p % 256)) :: nzOf r) (u.touched16 (xbAddress xb s)) (tbl xb s) := by
  intro u y1 y2 p r
  have hhigh : (memWord (.idx xb) s).high = u.read8 (xbAddress xb s) := State.read16_high _ _
  have hlow : (memWord (.idx xb) s).low = u.read8 (xbAddress xb s + 1) := State.read16_low _ _
  simp only [tbl, hhigh, hlow, interpolated_eq, fractionBit_eq]
  exact gives8_of_ccr (afterMemWord_ccr (.idx xb) s) (tableCcr_sets s.ccr r _)

theorem etbl_gives (xb : Xb) (s : State) :
    let u := xbAfter xb s
    let v := u.touched16 (xbAddress xb s)
    let y1 : Int := (u.read16 (xbAddress xb s)).toNat
    let y2 : Int := (v.read16 (xbAddress xb s + 2)).toNat
    let p := s.b.toNat * (y2 - y1)
    let r := BitVec.ofInt 16 (y1 + p / 256)
    Gives16 .d r ((.c, decide (128 ≤ p % 256)) :: nzOf r) (v.touched16 (xbAddress xb s + 2)) (etbl xb s) := by
  intro u v y1 y2 p r
  have hccr : (v.touched16 (xbAddress xb s + 2)).ccr = s.ccr :=
    (v.touched16_ccr _).trans (afterMemWord_ccr (.idx xb) s)
  simp only [etbl, interpolated_eq, fractionBit_eq]
  exact gives16_of_ccr hccr (tableCcr_sets s.ccr r _)

/-- Settles O53: the product rounded down and its bit 7, over the entries read. -/
theorem tableInterpolation : Obligations.TableInterpolation := fun s =>
  ⟨fun xb => ⟨_, rfl, tbl_gives xb s⟩, fun xb => ⟨_, rfl, etbl_gives xb s⟩⟩

/-! ### The grade of MEM (R562) -/

theorem membershipSide_eq (distance : Nat) (slope : Byte) :
    membershipSide distance slope = if slope.toNat = 0 then 255 else distance * slope.toNat := by
  have hzero : slope = 0#8 ↔ slope.toNat = 0 := BitVec.toNat_inj.symm
  simp only [membershipSide, hzero]

theorem membershipGrade_eq (a p1 p2 s1 s2 : Byte) :
    membershipGrade a p1 p2 s1 s2 = BitVec.ofNat 8
      (if a.toNat < p1.toNat ∨ p2.toNat < a.toNat then 0
        else min (min (if s1.toNat = 0 then 255 else (a.toNat - p1.toNat) * s1.toNat)
          (if s2.toNat = 0 then 255 else (p2.toNat - a.toNat) * s2.toNat)) 255) := by
  rw [membershipGrade, membershipSide_eq, membershipSide_eq]
  split <;> rfl

/-- S, X and I are no result flags of a fuzzy instruction (R560). -/
theorem flagOf_havocCcr (k : Byte) (fresh : Nat) :
    ∀ f ∈ [Flag.s, .x, .i], flagOf (havocCcr k fresh) f = flagOf k f := by
  simp [havocCcr, withHNZVC, withNZVC, withNZV, withNZ]

/-- The last part of MEM: the grade stored, the pointers advanced, the flags free. -/
theorem memGrade_gives {s u : State} (hinv : u.Inv) (g : Byte) (x y : Word) :
    let t := ({ u.write8 s.y g with x := x, y := y }).setCcr (havocCcr s.ccr s.fresh)
    Stored [(u.place s.y, g)] u t ∧ FlagsKept [.s, .x, .i] s t ∧
      Unchanged [.x, .y, .ccr, .mem, .ppage, .gpage, .devices] u t := by
  intro t
  have hstored := State.write8_stored hinv.mem hinv.gmem s.y g
  refine ⟨hstored.congr ⟨rfl, rfl, rfl, rfl, rfl, rfl, rfl⟩, flagOf_havocCcr s.ccr s.fresh, fun p hp => ?_⟩
  cases p with
  | x | y | ccr | mem | ppage | gpage | devices => simp at hp
  | _ => simp [Part.same, t]

end Sys2Proof.Machine

namespace Sys2Proof

open Machine

/-- Settles O54: the two words at X are the four bytes of the trapezoid, and the grade of A goes to Y. -/
theorem membershipGrade : Obligations.MembershipGrade := by
  intro s hinv v u a p1 p2 s1 s2 left right grade
  have hready : u.Inv := (((Keeps.refl s).touched16 s.x).touched16 (s.x + 2)).inv hinv
  have hx : s.x + 2 + 1 = s.x + 3 := by bv_omega
  have hgrade : Machine.membershipGrade s.a (s.read16 s.x).high (s.read16 s.x).low (v.read16 (s.x + 2)).high
      (v.read16 (s.x + 2)).low = BitVec.ofNat 8 grade := by
    rw [membershipGrade_eq, State.read16_high, State.read16_low, State.read16_high, State.read16_low, hx]
  obtain ⟨hstored, hflags, hrest⟩ := memGrade_gives (s := s) hready (BitVec.ofNat 8 grade) (s.x + 4) (s.y + 1)
  refine ⟨_, congrArg Host.Outcome.next ?_, hstored, rfl, rfl, hflags, hrest⟩
  rw [fuzzyMem, hgrade]

end Sys2Proof

/-! PROOFS. The branch, system and exception family: vectors, NOP and BGND, the software exceptions, WAI and STOP, and
the taking of an interrupt (R640 to R646, R661, R665 to R671, R678, R679). -/

namespace Sys2Proof.Machine

/-! ### Vectors (R661) -/

theorem vectorOf_device_toNat (k : Fin 121) : (vectorOf (.device k)).toNat = 0xFF00 + 2 * k.val := by
  have hk := k.isLt
  rw [vectorOf, BitVec.toNat_ofNat, Nat.mod_eq_of_lt (by omega)]

/-- In plain memory a vector fetch reads the location of its own address. -/
theorem State.vectorPlace_of_ram {s : State} {addr : Word} (h : kindIn s.params.memMap addr.toNat = .ram) :
    s.vectorPlace addr = .cell addr.toNat := by
  rw [State.vectorPlace, h, placeOf]

/-- Settles O14: the vectors are given, and in plain memory the two bytes of one are memory's own. -/
theorem vectorsAreWhereTheSpecPutsThem : Obligations.VectorsAreWhereTheSpecPutsThem := by
  refine ⟨rfl, rfl, rfl, rfl, rfl, rfl, rfl, vectorOf_device_toNat, fun s vec hhigh hlow => ?_⟩
  rw [State.readVector, wordOf_toNat, State.vectorPlace_of_ram hhigh, State.vectorPlace_of_ram hlow, State.getPlace,
    State.getPlace]

/-! ### A step with no reset in sight (R662) -/

theorem step_of_no_reset {s : State} (hreset : s.nextReset = none) (harriving : s.arrivingReset = none) :
    step s = s.runStateStep := by
  rw [step, hreset, harriving]

theorem State.withRunState_unchanged (u : State) (rs : RunState) :
    Unchanged [.runState] u { u with runState := rs } := by
  intro p hp
  cases p with
  | runState => simp at hp
  | _ => rfl

/-- Settles O22: `nop` is the identity, `bgnd` at most sets the run state, and in Background nothing runs. -/
theorem nopAndBackground : Obligations.NopAndBackground := by
  refine fun s => ⟨⟨s, rfl, Unchanged.refl _ s⟩, fun hoff => ?_, fun hon => ?_, fun hrun hreset harriving => ?_⟩
  · have hbgnd : bgnd s = s := by simp [bgnd, hoff]
    exact ⟨s, congrArg Host.Outcome.next hbgnd, Unchanged.refl _ s⟩
  · have hbgnd : bgnd s = { s with runState := .background } := by simp [bgnd, hon]
    exact ⟨_, congrArg Host.Outcome.next hbgnd, rfl, s.withRunState_unchanged _⟩
  · rw [step_of_no_reset hreset harriving, State.runStateStep, hrun]

/-! ### Exceptions taken (R642, R643, R668) -/

/-- Settles O17: both are the entry sequence at PCnext, with a vector each. -/
theorem softwareExceptionsEnter : Obligations.SoftwareExceptionsEnter := fun s hinv =>
  ⟨⟨_, rfl, State.enter_entered hinv swiVector false s.pc⟩,
    fun _ => ⟨_, rfl, State.enter_entered hinv trapVector false s.pc⟩⟩

/-- What a step adds to an entry: free temporaries, an empty queue, the next free value. -/
theorem State.settleEntry_unchanged (s : State) :
    Unchanged [.tmp1, .tmp2, .tmp3, .queue, .refilled, .fresh] s s.settleEntry := by
  intro p hp
  cases p with
  | tmp1 | tmp2 | tmp3 | queue | refilled | fresh => simp at hp
  | _ => rfl

theorem State.settleEntry_settles (s : State) :
    s.settleEntry.queue = [] ∧ s.settleEntry.refilled = false ∧ s.settleEntry.fresh = s.fresh + 1 :=
  ⟨rfl, rfl, rfl⟩

theorem step_of_interrupt {s : State} {r : Request} (hrun : s.runState = .running) (hreset : s.nextReset = none)
    (harriving : s.arrivingReset = none) (hnext : s.nextInterrupt = some r) : step s = .next (s.interrupt r) := by
  rw [step_of_no_reset hreset harriving, State.runStateStep, hrun]
  simp only [State.runningStep, hnext]

/-- Settles O16: the step is the entry with the request's vector and PC, then the settling. -/
theorem interruptIsTakenBetweenInstructions : Obligations.InterruptIsTakenBetweenInstructions :=
  fun s r hinv hrun hreset harriving hnext =>
    ⟨s.enter (vectorOf r) (r == .xirq) s.pc, s.interrupt r, State.enter_entered hinv _ _ _,
      step_of_interrupt hrun hreset harriving hnext, State.settleEntry_unchanged _, State.settleEntry_settles _⟩

/-! ### WAI and STOP (R645, R646) -/

/-- The frame pushed and the CPU halted. -/
theorem State.halted_stacks {s : State} (hinv : s.Inv) (halt : RunState) :
    let t := { s.pushFrame s.pc with runState := halt }
    Stacked s.pc s t ∧ t.runState = halt ∧ Unchanged [.sp, .mem, .ppage, .gpage, .devices, .runState] s t := by
  have hstacked := State.pushFrame_stacked hinv s.pc
  have hframe := s.pushFrame_unchanged s.pc
  generalize s.pushFrame s.pc = u at hstacked hframe
  have hhalt := u.withRunState_unchanged halt
  exact ⟨⟨hstacked.sp, fun hclear => (hstacked.stored hclear).congr (hhalt.sameMemory (by simp))⟩, rfl,
    (hframe.mono (by simp)).trans (hhalt.mono (by simp))⟩

/-- Settles O20: WAI and an enabled STOP push the frame and halt, a disabled STOP is the identity. -/
theorem waiAndStopStackAndWait : Obligations.WaiAndStopStackAndWait := by
  refine fun s hinv => ⟨⟨_, rfl, State.halted_stacks hinv .waiting⟩, fun hs => ?_, fun hs => ?_⟩
  · have hstop : stop s = { s.pushFrame s.pc with runState := .stopped } := by simp [stop, hs]
    exact ⟨_, congrArg Host.Outcome.next hstop, State.halted_stacks hinv .stopped⟩
  · have hstop : stop s = s := by simp [stop, hs]
    exact ⟨s, congrArg Host.Outcome.next hstop, Unchanged.refl _ s⟩

/-- Waking: the second half of an entry alone, over the state after the vector's read (R679). -/
theorem State.wake_gives (s : State) (r : Request) :
    (s.wake r).pc = s.readVector (vectorOf r) ∧ (s.wake r).runState = .running ∧ (s.wake r).queue = [] ∧
      FlagsSet ((.i, true) :: if r = .xirq then [(.x, true)] else []) s (s.wake r) ∧
      Unchanged [.pc, .ccr, .runState, .tmp1, .tmp2, .tmp3, .queue, .refilled, .fresh]
        (s.touchedVector (vectorOf r)) (s.wake r) := by
  have hflags : Ccr.Sets ((.i, true) :: if r = .xirq then [(.x, true)] else []) s.ccr (s.wake r).ccr := by
    have hsets := maskedCcr_sets s.ccr (r == .xirq)
    simp only [beq_iff_eq] at hsets
    have hccr : (s.wake r).ccr = maskedCcr s.ccr (r == .xirq) :=
      congrArg (maskedCcr · _) (s.touchedVector_ccr _)
    rwa [hccr]
  exact ⟨rfl, rfl, rfl, hflags, ((State.vectored_unchanged _ _ _).mono (by simp)).trans
    ((State.settleEntry_unchanged _).mono (by simp))⟩

theorem State.continuesAfterStop_iff (s : State) :
    s.continuesAfterStop = true ↔ .xirq ∈ s.pending ∧ .xirq ∈ s.params.irqSources := by
  simp [State.continuesAfterStop]

/-- Settles O21: an interrupt wakes the CPU from either state; without one only the masked XIRQ leaves Stopped. -/
theorem waitingAndStoppedEnd : Obligations.WaitingAndStoppedEnd := by
  intro s hreset harriving hrun
  have hstep := step_of_no_reset hreset harriving
  refine ⟨fun r hnext => ⟨s.wake r, ?_, s.wake_gives r⟩, fun hnone =>
    ⟨fun hwaiting => ?_, fun hstopped => ⟨fun hxirq => ?_, fun hxirq => ?_⟩⟩⟩
  · rw [hstep, State.runStateStep]
    rcases hrun with hrun | hrun
    · simp only [hrun, State.waitingStep, hnext]
    · simp only [hrun, State.stoppedStep, hnext]
  · rw [hstep, State.runStateStep]
    simp only [hwaiting, State.waitingStep, hnone]
  · refine ⟨{ s with sp := s.sp + frameSize s.params.variant, runState := .running }, ?_, rfl, rfl, fun p hp => ?_⟩
    · rw [hstep, State.runStateStep]
      simp only [hstopped, State.stoppedStep, hnone, s.continuesAfterStop_iff.mpr hxirq, if_true]
    · cases p with
      | sp | runState => simp at hp
      | _ => rfl
  · rw [hstep, State.runStateStep]
    simp only [hstopped, State.stoppedStep, hnone, s.continuesAfterStop_iff, if_neg hxirq]

end Sys2Proof.Machine

/-! PROOFS. The branch, system and exception family: RTI (R644, R672). -/

namespace Sys2Proof.Machine

/-! ### Registers pulled one after another -/

/-- In the middle of a run of pulls: `u` is the state that the reads so far leave, SP stands at `addr`, and the pieces
`parts` alone may have been written. -/
structure Pulling (parts : List Part) (addr : Word) (u m : State) : Prop where
  sp : m.sp = addr
  rest : Unchanged parts u m
  memory : SameMemory u m

theorem Pulling.top16 {parts : List Part} {addr : Word} {u m : State} (h : Pulling parts addr u m) :
    m.top16 = u.read16 addr := by
  rw [State.top16, h.sp, h.memory.read16]

/-- A word pulled and written to `written`. -/
theorem Pulling.pull16 {parts written : List Part} {addr : Word} {u m m' : State} (h : Pulling parts addr u m)
    (hm : Unchanged written m.pulled16 m') (hkeeps : ∀ p ∈ pullKeeps, p ∉ written) (hsub : .sp :: written ⊆ parts)
    (hparts : ∀ p ∈ [Part.mem, .gmem, .devices, .ppage, .gpage, .fresh, .params], p ∉ parts) :
    Pulling parts (addr + 2) (u.touched16 addr) m' := by
  obtain ⟨hsp, hrest, -⟩ := pulled16_rest hm hkeeps
  rw [h.sp] at hsp hrest
  have hall := (h.rest.touched16 hparts addr).trans (hrest.mono hsub)
  exact ⟨hsp, hall, hall.sameMemory hparts⟩

theorem State.pullBA_unchanged (m : State) : Unchanged [.a, .b] m.pulled16 m.pullBA := by
  intro p hp
  cases p with
  | a | b => simp at hp
  | _ => rfl

theorem State.pullX_unchanged (m : State) : Unchanged [.x] m.pulled16 m.pullX := by
  intro p hp
  cases p with
  | x => simp at hp
  | _ => rfl

theorem State.pullY_unchanged (m : State) : Unchanged [.y] m.pulled16 m.pullY := by
  intro p hp
  cases p with
  | y => simp at hp
  | _ => rfl

theorem State.pullPc_unchanged (m : State) : Unchanged [.pc, .refilled] m.pulled16 m.pullPc := by
  intro p hp
  cases p with
  | pc | refilled => simp at hp
  | _ => rfl

theorem State.pullXYPc_keeps_ba (m : State) :
    m.pullX.pullY.pullPc.b = m.b ∧ m.pullX.pullY.pullPc.a = m.a := by
  simp [State.pullX, State.pullY, State.pullPc]

/-- What the frame holds above the condition codes, pulled from `addr` on (R669, R670). -/
structure RegistersPulled (parts : List Part) (addr : Word) (u t : State) : Prop where
  b : t.b = u.read8 addr
  a : t.a = u.read8 (addr + 1)
  x : t.x = (u.touched16 addr).read16 (addr + 2)
  y : t.y = ((u.touched16 addr).touched16 (addr + 2)).read16 (addr + 4)
  pc : t.pc = (((u.touched16 addr).touched16 (addr + 2)).touched16 (addr + 4)).read16 (addr + 6)
  refilled : t.refilled = true
  done : Pulling parts (addr + 8)
    ((((u.touched16 addr).touched16 (addr + 2)).touched16 (addr + 4)).touched16 (addr + 6)) t

theorem Pulling.registers {parts : List Part} {addr : Word} {u m : State} (h : Pulling parts addr u m)
    (hregs : [Part.a, .b, .x, .y, .sp, .pc, .refilled] ⊆ parts)
    (hparts : ∀ p ∈ [Part.mem, .gmem, .devices, .ppage, .gpage, .fresh, .params], p ∉ parts) :
    RegistersPulled parts addr u m.pullBA.pullX.pullY.pullPc := by
  have hba := h.pull16 m.pullBA_unchanged (by decide) (List.Subset.trans (by decide) hregs) hparts
  have hx := hba.pull16 m.pullBA.pullX_unchanged (by decide) (List.Subset.trans (by decide) hregs) hparts
  rw [show addr + 2 + 2 = addr + 4 by bv_omega] at hx
  have hy := hx.pull16 (State.pullY_unchanged _) (by decide) (List.Subset.trans (by decide) hregs) hparts
  rw [show addr + 4 + 2 = addr + 6 by bv_omega] at hy
  have hpc := hy.pull16 (State.pullPc_unchanged _) (by decide) (List.Subset.trans (by decide) hregs) hparts
  rw [show addr + 6 + 2 = addr + 8 by bv_omega] at hpc
  obtain ⟨hkeptb, hkepta⟩ := m.pullBA.pullXYPc_keeps_ba
  have hkeptx : m.pullBA.pullX.pullY.pullPc.x = m.pullBA.top16 := by simp [State.pullX, State.pullY, State.pullPc]
  have hkepty : m.pullBA.pullX.pullY.pullPc.y = m.pullBA.pullX.top16 := by simp [State.pullY, State.pullPc]
  have hword := h.top16
  exact ⟨hkeptb.trans ((congrArg Word.high hword).trans (u.read16_high addr)),
    hkepta.trans ((congrArg Word.low hword).trans (u.read16_low addr)), hkeptx.trans hba.top16,
    hkepty.trans hx.top16, hy.top16, rfl, hpc⟩

/-! ### RTI (R644) -/

theorem State.returned_ccr (s : State) : s.returned.ccr = s.pullCcr.ccr := by
  simp [State.returned, State.pullBA, State.pullX, State.pullY, State.pullPc]

theorem State.returned_ccrh (s : State) : s.returned.ccrh = s.pullCcr.ccrh := by
  simp [State.returned, State.pullBA, State.pullX, State.pullY, State.pullPc]

/-- The condition codes of HCS12 are one byte. -/
theorem pulling_pullCcr_hcs12 {s : State} (h : s.params.variant = .hcs12) :
    s.pullCcr = s.pulled8.writeCcr s.top8 ∧
      Pulling [.a, .b, .x, .y, .sp, .pc, .ccr, .refilled] (s.sp + 1) (s.touched8 s.sp) s.pullCcr := by
  have heq : s.pullCcr = s.pulled8.writeCcr s.top8 := by rw [State.pullCcr, h]
  obtain ⟨hsp, hrest, -⟩ := pulled8_rest (s.pulled8.writeCcr_unchanged s.top8) (by decide)
  rw [heq]
  exact ⟨rfl, hsp, hrest.mono (by simp), hrest.sameMemory (by simp)⟩

/-- Those of HCS12X are two. -/
theorem pulling_pullCcr_hcs12x {s : State} (h : s.params.variant = .hcs12x) :
    s.pullCcr = s.pulled16.writeCcrw s.top16 ∧
      Pulling [.a, .b, .x, .y, .sp, .pc, .ccr, .ccrh, .refilled] (s.sp + 2) (s.touched16 s.sp) s.pullCcr := by
  have heq : s.pullCcr = s.pulled16.writeCcrw s.top16 := by rw [State.pullCcr, h]
  obtain ⟨hsp, hrest, -⟩ := pulled16_rest (s.pulled16.writeCcrw_unchanged s.top16) (by decide)
  rw [heq]
  exact ⟨rfl, hsp, hrest.mono (by simp), hrest.sameMemory (by simp)⟩

theorem CcrLoaded.congr {v : Byte} {s t t' : State} (h : CcrLoaded v s t) (hccr : t'.ccr = t.ccr) :
    CcrLoaded v s t' := fun f => (State.flag_eq_of_ccr hccr f).trans (h f)

theorem CcrhLoaded.congr {v : Byte} {s t t' : State} (h : CcrhLoaded v s t) (hccrh : t'.ccrh = t.ccrh) :
    CcrhLoaded v s t' := fun k hk => by rw [hccrh, h k hk]

/-- Settles O18: the condition codes of the variant, then the registers above them in the frame. -/
theorem rtiPullsTheFrame : Obligations.RtiPullsTheFrame := by
  refine fun s => ⟨fun hvariant => ⟨s.returned, rfl, ?hcs12⟩, fun hvariant => ⟨s.returned, rfl, ?hcs12x⟩⟩
  case hcs12 =>
    obtain ⟨hpull, hpulling⟩ := pulling_pullCcr_hcs12 hvariant
    have hregs := hpulling.registers (by simp) (by simp)
    have h2 : s.sp + 1 + 1 = s.sp + 2 := by bv_omega
    have h3 : s.sp + 1 + 2 = s.sp + 3 := by bv_omega
    have h5 : s.sp + 1 + 4 = s.sp + 5 := by bv_omega
    have h7 : s.sp + 1 + 6 = s.sp + 7 := by bv_omega
    have h9 : s.sp + 1 + 8 = s.sp + 9 := by bv_omega
    obtain ⟨hb, ha, hx, hy, hpc, hrefilled, hsp, hrest, hmemory⟩ := hregs
    rw [h2] at ha
    rw [h3] at hx hy hpc hrest hmemory
    rw [h5] at hy hpc hrest hmemory
    rw [h7] at hpc hrest hmemory
    rw [h9] at hsp
    have hccr := s.pulled8_writeCcr_loaded.congr (s.returned_ccr.trans (congrArg State.ccr hpull))
    exact ⟨hccr, hb, ha, hx, hy, hpc, hsp, hrefilled, hrest, hmemory.readsAsBefore⟩
  case hcs12x =>
    obtain ⟨hpull, hpulling⟩ := pulling_pullCcr_hcs12x hvariant
    have hregs := hpulling.registers (by simp) (by simp)
    have h3 : s.sp + 2 + 1 = s.sp + 3 := by bv_omega
    have h4 : s.sp + 2 + 2 = s.sp + 4 := by bv_omega
    have h6 : s.sp + 2 + 4 = s.sp + 6 := by bv_omega
    have h8 : s.sp + 2 + 6 = s.sp + 8 := by bv_omega
    have h10 : s.sp + 2 + 8 = s.sp + 10 := by bv_omega
    obtain ⟨hb, ha, hx, hy, hpc, hrefilled, hsp, hrest, hmemory⟩ := hregs
    rw [h3] at ha
    rw [h4] at hx hy hpc hrest hmemory
    rw [h6] at hy hpc hrest hmemory
    rw [h8] at hpc hrest hmemory
    rw [h10] at hsp
    obtain ⟨hloadedh, hloaded⟩ := s.pulled16_writeCcrw_loaded
    exact ⟨hloadedh.congr (s.returned_ccrh.trans (congrArg State.ccrh hpull)),
      hloaded.congr (s.returned_ccr.trans (congrArg State.ccr hpull)), hb, ha, hx, hy, hpc, hsp, hrefilled, hrest,
      hmemory.readsAsBefore⟩

end Sys2Proof.Machine

/-! PROOFS. The branch, system and exception family: bytes pushed to plain memory, and RTI after an entry (R644, R668,
R672). -/

namespace Sys2Proof.Machine

/-! ### Bytes held from an address on -/

theorem State.holds_nil (s : State) (addr : Word) : s.Holds addr [] := fun _ h => absurd h (Nat.not_lt_zero _)

theorem State.holds_cons {s : State} {addr : Word} {v : Byte} {bytes : List Byte} :
    s.Holds addr (v :: bytes) ↔ s.read8 addr = v ∧ s.Holds (addr + 1) bytes := by
  have hshift : ∀ k, addr + BitVec.ofNat 16 (k + 1) = addr + 1 + BitVec.ofNat 16 k := fun k => by
    rw [Nat.add_comm k 1]
    exact (add_ofNat_add addr 1 k).symm
  constructor
  · intro h
    have hfirst := h 0 (by simp)
    rw [BitVec.add_zero] at hfirst
    refine ⟨hfirst, fun k hk => ?_⟩
    have hnext := h (k + 1) (by simpa using hk)
    rwa [hshift] at hnext
  · rintro ⟨hfirst, hrest⟩ k hk
    cases k with
    | zero => rw [BitVec.add_zero]; exact hfirst
    | succ k => rw [hshift]; exact hrest k (by simpa using hk)

/-! ### Pushes to plain memory -/

/-- A word pushed to plain memory changes SP and two bytes of memory. -/
theorem State.push16_plain {t : State} (h : t.PlainRam (t.sp - 2) 2) (v : Word) :
    t.push16 v = { t with
      sp := t.sp - 2, mem := memSet (memSet t.mem (t.sp - 2).toNat v.high) (t.sp - 2 + 1).toNat v.low } := by
  obtain ⟨hhigh, hlow⟩ := h.places
  simp only [State.push16, State.write16, place_withSp, hhigh, hlow]
  rfl

theorem State.push8_plain {t : State} (h : t.place (t.sp - 1) = .cell (t.sp - 1).toNat) (v : Byte) :
    t.push8 v = { t with sp := t.sp - 1, mem := memSet t.mem (t.sp - 1).toNat v } := by
  rw [State.push8, State.write8, place_withSp, h]
  rfl

/-- The places below SP that the frame takes, counted down from SP. -/
theorem State.PlainRam.below {s : State} {n : Nat} (h : s.PlainRam (s.sp - BitVec.ofNat 16 n) n) {k : Nat}
    (hpos : 0 < k) (hk : k ≤ n) :
    s.place (s.sp - BitVec.ofNat 16 k) = .cell (s.sp - BitVec.ofNat 16 k).toNat := by
  have hplace := h (n - k) (by omega)
  have haddr : s.sp - BitVec.ofNat 16 n + BitVec.ofNat 16 (n - k) = s.sp - BitVec.ofNat 16 k := by
    obtain ⟨j, rfl⟩ := Nat.exists_eq_add_of_le hk
    rw [Nat.add_sub_cancel_left, BitVec.ofNat_add]
    bv_omega
  rwa [haddr] at hplace

/-- After a run of pushes to plain memory: SP stands below the bytes pushed, memory holds them from SP on, the stores
made are the listed ones, and nothing else has changed. -/
structure PlainPushed (stores : List (Place × Byte)) (bytes : List Byte) (s t : State) : Prop where
  inv : t.Inv
  sp : t.sp = s.sp - BitVec.ofNat 16 bytes.length
  rest : Unchanged [.sp, .mem] s t
  mem : ∀ loc, memGet t.mem loc = (lastByte stores (.cell loc)).getD (memGet s.mem loc)
  holds : t.Holds t.sp bytes
  within : ∀ e ∈ stores, ∃ j, 1 ≤ j ∧ j ≤ bytes.length ∧ e.1 = s.place (s.sp - BitVec.ofNat 16 j)

theorem plainPushed_nil {s : State} (h : s.Inv) : PlainPushed [] [] s s where
  inv := h
  sp := (BitVec.sub_zero s.sp).symm
  rest := Unchanged.refl _ s
  mem _ := rfl
  holds := s.holds_nil _
  within := by simp

theorem PlainPushed.place {stores : List (Place × Byte)} {bytes : List Byte} {s t : State}
    (h : PlainPushed stores bytes s t) (addr : Word) : t.place addr = s.place addr :=
  State.place_congr (h.rest .params (by simp)) (h.rest .ppage (by simp)) addr

/-- The bytes pushed so far stay where a store goes below SP. -/
theorem PlainPushed.holds_after {stores below : List (Place × Byte)} {bytes : List Byte} {s t t' : State} {n : Nat}
    (h : PlainPushed stores bytes s t) (hram : s.PlainRam (s.sp - BitVec.ofNat 16 n) n) (hlen : bytes.length ≤ n)
    (hstored : Stored below t t')
    (hbelow : ∀ e ∈ below, ∃ addr : Word, e.1 = .cell addr.toNat ∧
      ∀ k < bytes.length, addr ≠ t.sp + BitVec.ofNat 16 k) : t'.Holds t.sp bytes := by
  intro k hk
  have haddr : t.sp + BitVec.ofNat 16 k = s.sp - BitVec.ofNat 16 (bytes.length - k) := by
    obtain ⟨j, hj⟩ := Nat.exists_eq_add_of_lt hk
    rw [h.sp, hj, show k + j + 1 - k = j + 1 by omega, Nat.add_assoc, BitVec.ofNat_add]
    bv_omega
  have hcell : t.place (t.sp + BitVec.ofNat 16 k) = .cell (t.sp + BitVec.ofNat 16 k).toNat := by
    rw [h.place, haddr]
    exact hram.below (by omega) (by omega)
  rw [← h.holds k hk]
  refine hstored.read (fun e he => ?_) _ (fun e he => ?_)
  · obtain ⟨addr, heq, -⟩ := hbelow e he
    simp [heq]
  · obtain ⟨addr, heq, hne⟩ := hbelow e he
    have hloc : (t.sp + BitVec.ofNat 16 k).toNat ≠ addr.toNat := fun hn =>
      hne k hk (BitVec.eq_of_toNat_eq hn.symm)
    rw [hcell, heq]
    exact beq_false_of_ne hloc

theorem sub_ne_add_of_lt {sp : Word} {d k : Nat} (hd : 0 < d) (h : d + k < 65536) :
    sp - BitVec.ofNat 16 d ≠ sp + BitVec.ofNat 16 k := by
  intro heq
  have hd' : (BitVec.ofNat 16 d).toNat = d := by rw [BitVec.toNat_ofNat, Nat.mod_eq_of_lt (by omega)]
  have hk' : (BitVec.ofNat 16 k).toNat = k := by rw [BitVec.toNat_ofNat, Nat.mod_eq_of_lt (by omega)]
  have hnat := congrArg BitVec.toNat heq
  rw [BitVec.toNat_sub, BitVec.toNat_add, hd', hk'] at hnat
  omega

section Push

variable {stores : List (Place × Byte)} {bytes : List Byte} {s t : State} {n : Nat}

/-- A word more. -/
theorem PlainPushed.push16 (h : PlainPushed stores bytes s t)
    (hram : s.PlainRam (s.sp - BitVec.ofNat 16 n) n) (hlen : bytes.length + 2 ≤ n) (hn : n ≤ 65535) (v : Word) :
    PlainPushed (stores ++ wordStores s (s.sp - BitVec.ofNat 16 (bytes.length + 2)) v)
      (v.high :: v.low :: bytes) s (t.push16 v) := by
  have hsp : t.sp - 2 = s.sp - BitVec.ofNat 16 (bytes.length + 2) := by
    rw [h.sp, BitVec.ofNat_add]
    bv_omega
  have hsecond : s.sp - BitVec.ofNat 16 (bytes.length + 2) + 1 = s.sp - BitVec.ofNat 16 (bytes.length + 1) := by
    rw [BitVec.ofNat_add, BitVec.ofNat_add]
    bv_omega
  have hcell : t.place (t.sp - 2) = .cell (t.sp - 2).toNat := by
    rw [h.place, hsp]
    exact hram.below (by omega) hlen
  have hcell' : t.place (t.sp - 2 + 1) = .cell (t.sp - 2 + 1).toNat := by
    rw [h.place, hsp, hsecond]
    exact hram.below (by omega) (by omega)
  have hplain : t.PlainRam (t.sp - 2) 2 := by
    intro k hk
    match k, hk with
    | 0, _ => rwa [BitVec.add_zero]
    | 1, _ => exact hcell'
  have hstored := (push16_pushes h.inv.mem h.inv.gmem v).stored
  have hbytes := State.read8_write16_same (s := { t with sp := t.sp - 2 }) h.inv.mem v hplain
  have hold : (t.push16 v).Holds t.sp bytes := by
    refine h.holds_after hram (by omega) hstored fun e he => ?_
    simp only [wordStores, List.mem_cons, List.not_mem_nil, or_false] at he
    rcases he with rfl | rfl
    · exact ⟨_, hcell, fun k hk => sub_ne_add_of_lt (d := 2) (by omega) (by omega)⟩
    · refine ⟨_, hcell', fun k hk => ?_⟩
      rw [show t.sp - 2 + 1 = t.sp - BitVec.ofNat 16 1 by bv_omega]
      exact sub_ne_add_of_lt (by omega) (by omega)
  refine ⟨State.push16_inv h.inv v, (t.push16_sp v).trans hsp, h.rest.trans ?rest, fun loc => ?mem, ?holds,
    fun e he => ?within⟩
  case rest =>
    rw [State.push16_plain hplain]
    intro p hp
    cases p with
    | sp | mem => simp at hp
    | _ => rfl
  case mem =>
    have hplaces : wordStores t (t.sp - 2) v = wordStores s (s.sp - BitVec.ofNat 16 (bytes.length + 2)) v := by
      simp only [wordStores, h.place, hsp]
    rw [hstored.mem, h.mem, lastByte_append, hplaces]
    cases lastByte (wordStores s (s.sp - BitVec.ofNat 16 (bytes.length + 2)) v) (.cell loc) <;> rfl
  case holds =>
    rw [State.push16_sp]
    refine State.holds_cons.mpr ⟨hbytes.1, State.holds_cons.mpr ⟨hbytes.2, ?_⟩⟩
    rwa [show t.sp - 2 + 1 + 1 = t.sp by bv_omega]
  case within =>
    simp only [wordStores, hsecond, List.mem_append, List.mem_cons, List.not_mem_nil, or_false] at he
    rcases he with he | rfl | rfl
    · obtain ⟨j, hpos, hj, heq⟩ := h.within e he
      exact ⟨j, hpos, by simp only [List.length_cons]; omega, heq⟩
    · exact ⟨bytes.length + 2, by omega, by simp, rfl⟩
    · exact ⟨bytes.length + 1, by omega, by simp, rfl⟩

/-- A byte more. -/
theorem PlainPushed.push8 (h : PlainPushed stores bytes s t)
    (hram : s.PlainRam (s.sp - BitVec.ofNat 16 n) n) (hlen : bytes.length + 1 ≤ n) (hn : n ≤ 65535) (v : Byte) :
    PlainPushed (stores ++ [(s.place (s.sp - BitVec.ofNat 16 (bytes.length + 1)), v)]) (v :: bytes) s (t.push8 v) := by
  have hsp : t.sp - 1 = s.sp - BitVec.ofNat 16 (bytes.length + 1) := by
    rw [h.sp, BitVec.ofNat_add]
    bv_omega
  have hcell : t.place (t.sp - 1) = .cell (t.sp - 1).toNat := by
    rw [h.place, hsp]
    exact hram.below (by omega) hlen
  have hstored := (push8_pushes h.inv.mem h.inv.gmem v).stored
  have hbyte := State.read8_write8_same (s := { t with sp := t.sp - 1 }) h.inv.mem v hcell
  have hold : (t.push8 v).Holds t.sp bytes := by
    refine h.holds_after hram (by omega) hstored fun e he => ?_
    rw [List.mem_singleton.mp he]
    exact ⟨_, hcell, fun k hk => sub_ne_add_of_lt (d := 1) (by omega) (by omega)⟩
  refine ⟨State.push8_inv h.inv v, (t.push8_sp v).trans hsp, h.rest.trans ?rest, fun loc => ?mem, ?holds,
    fun e he => ?within⟩
  case rest =>
    rw [State.push8_plain hcell]
    intro p hp
    cases p with
    | sp | mem => simp at hp
    | _ => rfl
  case mem =>
    rw [hstored.mem, h.mem, lastByte_append, h.place, hsp]
    cases lastByte [(s.place (s.sp - BitVec.ofNat 16 (bytes.length + 1)), v)] (.cell loc) <;> rfl
  case holds =>
    rw [State.push8_sp]
    refine State.holds_cons.mpr ⟨hbyte, ?_⟩
    rwa [show t.sp - 1 + 1 = t.sp by bv_omega]
  case within =>
    rcases List.mem_append.mp he with he | he
    · obtain ⟨j, hpos, hj, heq⟩ := h.within e he
      exact ⟨j, hpos, by simp only [List.length_cons]; omega, heq⟩
    · rw [List.mem_singleton.mp he]
      exact ⟨bytes.length + 1, by omega, by simp, rfl⟩

/-- Memory away from the bytes pushed is as before. -/
theorem PlainPushed.mem_away (h : PlainPushed stores bytes s t) {loc : Nat}
    (haway : ∀ j, 1 ≤ j → j ≤ bytes.length → s.place (s.sp - BitVec.ofNat 16 j) ≠ .cell loc) :
    memGet t.mem loc = memGet s.mem loc := by
  rw [h.mem, lastByte_eq_none fun e he => ?_, Option.getD_none]
  obtain ⟨j, hpos, hj, heq⟩ := h.within e he
  exact heq ▸ haway j hpos hj

end Push

/-! ### The frame in plain memory -/

/-- The bytes of a frame from its lowest address on (R669, R670). -/
def frameBytes (s : State) (rtn : Word) : List Byte :=
  let registers := [s.b, s.a, s.x.high, s.x.low, s.y.high, s.y.low, rtn.high, rtn.low]
  match s.params.variant with
  | .hcs12 => s.ccr :: registers
  | .hcs12x => s.ccrh :: s.ccr :: registers

theorem frameSize_le (v : Variant) : 8 < (frameSize v).toNat ∧ (frameSize v).toNat ≤ 10 := by
  cases v <;> decide

theorem State.pushFrame_plain {s : State} (hinv : s.Inv)
    (hram : s.PlainRam (s.sp - frameSize s.params.variant) (frameSize s.params.variant).toNat) (rtn : Word) :
    PlainPushed (frameStores s rtn) (frameBytes s rtn) s (s.pushFrame rtn) := by
  obtain ⟨hmore, hmost⟩ := frameSize_le s.params.variant
  have hsize : BitVec.ofNat 16 (frameSize s.params.variant).toNat = frameSize s.params.variant := by simp
  replace hram : s.PlainRam (s.sp - BitVec.ofNat 16 (frameSize s.params.variant).toNat)
      (frameSize s.params.variant).toNat := by rwa [hsize]
  have h1 := (plainPushed_nil hinv).push16 hram (by simp; omega) (by omega) rtn
  have h2 := h1.push16 hram (by simp; omega) (by omega) s.y
  have h3 := h2.push16 hram (by simp; omega) (by omega) s.x
  have h4 := h3.push16 hram (by simp; omega) (by omega) (wordOf s.b s.a)
  rw [wordOf_high, wordOf_low] at h4
  generalize hu : (((s.push16 rtn).push16 s.y).push16 s.x).push16 (wordOf s.b s.a) = u at h4
  have hparams : u.params = s.params := h4.rest .params (by simp)
  have hccr : u.ccr = s.ccr := h4.rest .ccr (by simp)
  have hccrh : u.ccrh = s.ccrh := h4.rest .ccrh (by simp)
  have hframe : s.pushFrame rtn = u.pushCcr := congrArg State.pushCcr hu
  rw [hframe, State.pushCcr, frameStores, frameBytes, hparams]
  cases hvariant : s.params.variant with
  | hcs12 =>
    rw [hvariant] at hram
    rw [hccr]
    exact h4.push8 hram (by simp [frameSize]) (by simp [frameSize]) s.ccr
  | hcs12x =>
    rw [hvariant] at hram
    have h5 := h4.push16 hram (by simp [frameSize]) (by simp [frameSize]) u.ccrw
    rw [State.ccrw, hccr, hccrh, wordOf_high, wordOf_low] at h5
    rw [State.ccrw, hccr, hccrh]
    exact h5

end Sys2Proof.Machine

/-! PROOFS. The branch, system and exception family: RTI gives back what an entry stacked in plain memory (R644, R668,
R672). -/

namespace Sys2Proof.Machine

/-! ### A frame pulled from plain memory -/

theorem State.PlainRam.place_ne_device {s : State} {addr : Word} {n : Nat} (h : s.PlainRam addr n) {k : Nat}
    (hk : k < n) (reg : Nat) : s.place (addr + BitVec.ofNat 16 k) ≠ .device reg := by
  rw [h k hk]
  exact Place.noConfusion

theorem State.PlainRam.touched16_eq {s : State} {addr : Word} {n : Nat} (h : s.PlainRam addr n) {k : Nat}
    (hk : k + 1 < n) : s.touched16 (addr + BitVec.ofNat 16 k) = s := by
  refine State.touched16_eq (h.place_ne_device (by omega)) fun reg => ?_
  have hnext : addr + BitVec.ofNat 16 k + 1 = addr + BitVec.ofNat 16 (k + 1) := add_ofNat_add addr k 1
  rw [hnext]
  exact h.place_ne_device hk reg

theorem State.PlainRam.drop {s : State} {addr : Word} {m n : Nat} (h : s.PlainRam addr (m + n)) :
    s.PlainRam (addr + BitVec.ofNat 16 m) n := by
  intro k hk
  rw [add_ofNat_add]
  exact h (m + k) (by omega)

/-- Two bytes held make a word. -/
theorem State.read16_of_holds {s : State} {addr v : Word} {bytes : List Byte}
    (h : s.Holds addr (v.high :: v.low :: bytes)) : s.read16 addr = v := by
  obtain ⟨hhigh, hrest⟩ := State.holds_cons.mp h
  obtain ⟨hlow, -⟩ := State.holds_cons.mp hrest
  rw [State.read16, hhigh, hlow, wordOf_high_low]

theorem State.holds_drop_word {s : State} {addr : Word} {v w : Byte} {bytes : List Byte}
    (h : s.Holds addr (v :: w :: bytes)) : s.Holds (addr + 2) bytes := by
  have hrest := (State.holds_cons.mp (State.holds_cons.mp h).2).2
  rwa [show addr + 1 + 1 = addr + 2 by bv_omega] at hrest

/-- The registers of a frame. -/
def registerBytes (s : State) (rtn : Word) : List Byte :=
  [s.b, s.a, s.x.high, s.x.low, s.y.high, s.y.low, rtn.high, rtn.low]

/-- The registers have the values that a frame of `s` holds, and SP stands above it. -/
structure RegistersRestored (rtn addr : Word) (s t : State) : Prop where
  a : t.a = s.a
  b : t.b = s.b
  x : t.x = s.x
  y : t.y = s.y
  pc : t.pc = rtn
  sp : t.sp = addr + 8

theorem RegistersPulled.restored {parts : List Part} {rtn addr : Word} {s u t : State}
    (h : RegistersPulled parts addr u t) (hram : u.PlainRam addr 8) (hholds : u.Holds addr (registerBytes s rtn)) :
    RegistersRestored rtn addr s t ∧ Unchanged parts u t := by
  have h0 : u.touched16 addr = u := by
    have := hram.touched16_eq (k := 0) (by omega)
    rwa [BitVec.add_zero] at this
  have h2 : u.touched16 (addr + 2) = u := hram.touched16_eq (k := 2) (by omega)
  have h4 : u.touched16 (addr + 4) = u := hram.touched16_eq (k := 4) (by omega)
  have h6 : u.touched16 (addr + 6) = u := hram.touched16_eq (k := 6) (by omega)
  obtain ⟨hb, ha, hx, hy, hpc, -, hsp, hrest, -⟩ := h
  rw [h0] at hx hy hpc hrest
  rw [h2] at hy hpc hrest
  rw [h4] at hpc hrest
  rw [h6] at hrest
  have hword := State.holds_drop_word hholds
  have hword' := State.holds_drop_word hword
  rw [show addr + 2 + 2 = addr + 4 by bv_omega] at hword'
  have hword'' := State.holds_drop_word hword'
  rw [show addr + 4 + 2 = addr + 6 by bv_omega] at hword''
  obtain ⟨hfirst, htail⟩ := State.holds_cons.mp hholds
  exact ⟨⟨ha.trans (State.holds_cons.mp htail).1, hb.trans hfirst, hx.trans (State.read16_of_holds hword),
    hy.trans (State.read16_of_holds hword'), hpc.trans (State.read16_of_holds hword''), hsp⟩, hrest⟩

/-! ### RTI over a frame in plain memory -/

/-- The pieces of state that RTI writes. -/
def rtiParts : List Part := [.a, .b, .x, .y, .sp, .pc, .ccr, .ccrh, .refilled]

/-- What RTI in `m` gives over a frame that `s` pushed. -/
structure Restored (rtn : Word) (s m t : State) : Prop where
  registers : RegistersRestored rtn (m.sp + frameSize s.params.variant - 8) s t
  ccr : CcrLoaded s.ccr m t
  ccrh : m.ccrh = s.ccrh → t.ccrh = s.ccrh
  rest : Unchanged rtiParts m t

theorem CcrhLoaded.eq_of_same {v : Byte} {s t : State} (h : CcrhLoaded v s t) (hsame : s.ccrh = v) : t.ccrh = v := by
  apply BitVec.eq_of_getLsbD_eq
  intro k hk
  rw [h k hk, hsame, ite_self]

theorem rti_restores_hcs12 {rtn : Word} {s m : State} (hvariant : m.params.variant = .hcs12)
    (hsame : s.params.variant = .hcs12) (hram : m.PlainRam m.sp (frameSize .hcs12).toNat)
    (hholds : m.Holds m.sp (s.ccr :: registerBytes s rtn)) : Restored rtn s m m.returned := by
  obtain ⟨hpull, hpulling⟩ := pulling_pullCcr_hcs12 hvariant
  obtain ⟨hccr, hholds⟩ := State.holds_cons.mp hholds
  have htouched : m.touched8 m.sp = m := State.touched8_eq fun reg => by
    have := hram.place_ne_device (k := 0) (by decide) reg
    rwa [BitVec.add_zero] at this
  rw [htouched] at hpulling
  have hpulled := hpulling.registers (by simp) (by simp)
  obtain ⟨hregs, hrest⟩ := hpulled.restored (State.PlainRam.drop (m := 1) hram) hholds
  have hloaded := m.pulled8_writeCcr_loaded.congr (m.returned_ccr.trans (congrArg State.ccr hpull))
  have hbase : m.sp + frameSize s.params.variant - 8 = m.sp + 1 := by
    rw [hsame, frameSize]
    bv_omega
  exact ⟨hbase ▸ hregs, hccr ▸ hloaded, fun hold => (hrest .ccrh (by simp)).trans hold,
    hrest.mono (by simp [rtiParts])⟩

theorem rti_restores_hcs12x {rtn : Word} {s m : State} (hvariant : m.params.variant = .hcs12x)
    (hsame : s.params.variant = .hcs12x) (hram : m.PlainRam m.sp (frameSize .hcs12x).toNat)
    (hholds : m.Holds m.sp (s.ccrh :: s.ccr :: registerBytes s rtn)) : Restored rtn s m m.returned := by
  obtain ⟨hpull, hpulling⟩ := pulling_pullCcr_hcs12x hvariant
  obtain ⟨hccrh, htail⟩ := State.holds_cons.mp hholds
  obtain ⟨hccr, -⟩ := State.holds_cons.mp htail
  have htouched : m.touched16 m.sp = m := by
    have := hram.touched16_eq (k := 0) (by decide)
    rwa [BitVec.add_zero] at this
  rw [htouched] at hpulling
  have hpulled := hpulling.registers (by simp) (by simp)
  obtain ⟨hregs, hrest⟩ := hpulled.restored (State.PlainRam.drop (m := 2) hram) (State.holds_drop_word hholds)
  obtain ⟨hloadedh, hloaded⟩ := m.pulled16_writeCcrw_loaded
  replace hloadedh := hloadedh.congr (m.returned_ccrh.trans (congrArg State.ccrh hpull))
  replace hloaded := hloaded.congr (m.returned_ccr.trans (congrArg State.ccr hpull))
  have hbase : m.sp + frameSize s.params.variant - 8 = m.sp + 2 := by
    rw [hsame, frameSize]
    bv_omega
  rw [hccrh] at hloadedh
  exact ⟨hbase ▸ hregs, hccr ▸ hloaded, hloadedh.eq_of_same, hrest.mono (by simp [rtiParts])⟩

theorem rti_restores {rtn : Word} {s m : State} (hsame : m.params.variant = s.params.variant)
    (hram : m.PlainRam m.sp (frameSize s.params.variant).toNat) (hholds : m.Holds m.sp (frameBytes s rtn)) :
    Restored rtn s m m.returned := by
  rw [frameBytes] at hholds
  cases hvariant : s.params.variant with
  | hcs12 =>
    rw [hvariant] at hsame hram hholds
    exact rti_restores_hcs12 hsame hvariant hram hholds
  | hcs12x =>
    rw [hvariant] at hsame hram hholds
    exact rti_restores_hcs12x hsame hvariant hram hholds

/-! ### Entry, then RTI -/

/-- What an entry changes once the frame is pushed, and PC put anywhere. -/
def entryParts : List Part := [.pc, .ccr, .runState, .refilled]

/-- Bytes held in plain memory are a matter of memory and of where it is. -/
theorem State.Holds.congr_plain {s t : State} {addr : Word} {bytes : List Byte} (h : s.Holds addr bytes)
    (hram : s.PlainRam addr bytes.length) (hplace : ∀ a, t.place a = s.place a) (hmem : t.mem = s.mem) :
    t.Holds addr bytes := by
  intro k hk
  rw [← h k hk, State.read8, State.read8, hplace, hram k hk, State.getPlace, State.getPlace, hmem]

theorem frameBytes_length (s : State) (rtn : Word) :
    (frameBytes s rtn).length = (frameSize s.params.variant).toNat := by
  rw [frameBytes]
  cases s.params.variant <;> rfl

/-- RTI in a state `m` that an entry from `s`, whose frame left `w`, leads to: `extra` is what the entry changes beside
the frame and `entryParts`. -/
theorem rti_undoes {rtn : Word} {extra : List Part} {s w m : State}
    (hpushed : PlainPushed (frameStores s rtn) (frameBytes s rtn) s w)
    (hram : s.PlainRam (s.sp - frameSize s.params.variant) (frameSize s.params.variant).toNat)
    (hwm : Unchanged (entryParts ++ extra) w m)
    (hextra : ∀ p ∈ [Part.sp, .mem, .ppage, .params, .ccrh], p ∉ extra) (hx : s.flag .x = true → m.flag .x = true)
    (hrun : m.runState = s.runState) (hrtn : rtn = s.pc) :
    Runs .rti m fun u => Unchanged (.mem :: .refilled :: extra) s u ∧
      ∀ loc, memGet u.mem loc = (lastByte (frameStores s rtn) (.cell loc)).getD (memGet s.mem loc) := by
  have hkept : ∀ p ∈ [Part.sp, .mem, .ppage, .params, .ccrh], p ∉ entryParts ++ extra := fun p hp => by
    have hnot := hextra p hp
    fin_cases hp <;> simpa [entryParts] using hnot
  have hsp : m.sp = s.sp - frameSize s.params.variant := by
    have hwsp := hpushed.sp
    rw [frameBytes_length] at hwsp
    exact (hwm .sp (hkept _ (by simp))).trans (by simpa using hwsp)
  have hparams : m.params = s.params := (hwm .params (hkept _ (by simp))).trans (hpushed.rest .params (by simp))
  have hppage : m.ppage = s.ppage := (hwm .ppage (hkept _ (by simp))).trans (hpushed.rest .ppage (by simp))
  have hplace : ∀ a, m.place a = s.place a := State.place_congr hparams hppage
  have hmram : m.PlainRam m.sp (frameSize s.params.variant).toNat := by
    rw [hsp]
    exact fun k hk => (hplace _).trans (hram k hk)
  have hwsp : w.sp = m.sp := (hwm .sp (hkept _ (by simp))).symm
  have hholds : m.Holds m.sp (frameBytes s rtn) := by
    rw [← hwsp]
    refine hpushed.holds.congr_plain ?_ (fun a => (hplace a).trans (hpushed.place a).symm)
      (hwm .mem (hkept _ (by simp)))
    rw [frameBytes_length, hwsp]
    exact fun k hk => (hpushed.place _).trans ((hplace _).symm.trans (hmram k hk))
  have hrestored := rti_restores (congrArg Params.variant hparams) hmram hholds
  refine ⟨_, rfl, ?_, fun loc => ?_⟩
  · have hentry : entryParts ++ extra ⊆ rtiParts ++ .runState :: .mem :: extra := fun q hq => by
      simp only [entryParts, rtiParts, List.mem_append, List.mem_cons, List.not_mem_nil] at hq ⊢
      tauto
    have hall : Unchanged (rtiParts ++ .runState :: .mem :: extra) s m.returned :=
      ((hpushed.rest.mono (by simp [rtiParts])).trans (hwm.mono hentry)).trans (hrestored.rest.mono (by simp))
    have hccrh := hrestored.ccrh ((hwm .ccrh (hkept _ (by simp))).trans (hpushed.rest .ccrh (by simp)))
    have hccr : m.returned.ccr = s.ccr := ccr_ext fun f => by
      have hload := hrestored.ccr f
      by_cases hf : f = .x
      · subst hf
        rw [if_pos rfl] at hload
        cases hold : s.flag .x with
        | false => exact hload.trans (by rw [show flagOf s.ccr .x = false from hold, Bool.false_and])
        | true => exact hload.trans (by rw [hx hold, Bool.and_true])
      · rwa [if_neg hf] at hload
    intro p hp
    cases p with
    | a => exact hrestored.registers.a
    | b => exact hrestored.registers.b
    | x => exact hrestored.registers.x
    | y => exact hrestored.registers.y
    | pc => exact hrestored.registers.pc.trans hrtn
    | sp =>
      refine hrestored.registers.sp.trans ?_
      rw [hsp]
      bv_omega
    | ccr => exact hccr
    | ccrh => exact hccrh
    | runState => exact (hrestored.rest .runState (by simp [rtiParts])).trans hrun
    | mem | refilled => simp at hp
    | _ => exact hall _ (by simpa [rtiParts] using hp)
  · rw [hrestored.rest .mem (by simp [rtiParts]), hwm .mem (hkept _ (by simp)), hpushed.mem]

/-- A frame's places and bytes are no matter of the devices. -/
theorem frameStores_congr {s v : State} (h : Unchanged [.devices] s v) (rtn : Word) :
    frameStores v rtn = frameStores s rtn := by
  have hplace : ∀ a, v.place a = s.place a := State.place_congr (h .params (by simp)) (h .ppage (by simp))
  have hparams : v.params = s.params := h .params (by simp)
  have hsp : v.sp = s.sp := h .sp (by simp)
  have ha : v.a = s.a := h .a (by simp)
  have hb : v.b = s.b := h .b (by simp)
  have hx : v.x = s.x := h .x (by simp)
  have hy : v.y = s.y := h .y (by simp)
  have hccr : v.ccr = s.ccr := h .ccr (by simp)
  have hccrh : v.ccrh = s.ccrh := h .ccrh (by simp)
  simp only [frameStores, wordStores, hplace, hparams, hsp, ha, hb, hx, hy, hccr, hccrh]

/-- An entry never clears X. -/
theorem flag_x_of_maskedCcr {k : Byte} {isXirq : Bool} (h : flagOf k .x = true) :
    flagOf (maskedCcr k isXirq) .x = true := by
  cases isXirq with
  | false => exact ((sets_one k .i true).2 .x (by simp)).trans h
  | true => exact (maskedCcr_sets k true).1 (.x, true) (by simp)

/-- RTI in a state that differs from the one an entry from `s` leaves in `extra` at most. -/
theorem rti_undoes_enter {s m : State} {vec : Word} {isXirq : Bool} {extra : List Part} (hinv : s.Inv)
    (hrun : s.runState = .running)
    (hram : s.PlainRam (s.sp - frameSize s.params.variant) (frameSize s.params.variant).toNat)
    (hm : Unchanged (.pc :: .refilled :: extra) (s.enter vec isXirq s.pc) m)
    (hextra : ∀ p ∈ [Part.sp, .mem, .ppage, .params, .ccrh, .ccr, .runState], p ∉ extra) :
    Runs .rti m fun u => Unchanged (.mem :: .refilled :: extra) (s.touchedVector vec) u ∧
      ∀ loc, memGet u.mem loc = (lastByte (frameStores s s.pc) (.cell loc)).getD (memGet s.mem loc) := by
  have hread := s.touchedVector_unchanged vec
  have hready : (s.touchedVector vec).Inv := (keeps_of_unchanged hread (by simp)).inv hinv
  have hplace : ∀ a, (s.touchedVector vec).place a = s.place a :=
    State.place_congr (hread .params (by simp)) (hread .ppage (by simp))
  have hram' : (s.touchedVector vec).PlainRam
      ((s.touchedVector vec).sp - frameSize (s.touchedVector vec).params.variant)
      (frameSize (s.touchedVector vec).params.variant).toNat := by
    rw [State.touchedVector_sp, State.touchedVector_params]
    exact fun k hk => (hplace _).trans (hram k hk)
  have hpushed := State.pushFrame_plain hready hram' s.pc
  have hframe := State.pushFrame_unchanged (s.touchedVector vec) s.pc
  have hentry := State.vectored_unchanged ((s.touchedVector vec).pushFrame s.pc) (s.readVector vec) isXirq
  have hstateccr : (s.enter vec isXirq s.pc).ccr = maskedCcr s.ccr isXirq :=
    congrArg (maskedCcr · isXirq) ((hframe .ccr (by simp)).trans (s.touchedVector_ccr vec))
  have hstaterun : (s.enter vec isXirq s.pc).runState = .running := rfl
  have hmccr : m.ccr = maskedCcr s.ccr isXirq := by
    refine (hm .ccr ?_).trans hstateccr
    simpa using hextra .ccr (by simp)
  have hmrun : m.runState = .running := by
    refine (hm .runState ?_).trans hstaterun
    simpa using hextra .runState (by simp)
  have hsub : .pc :: .refilled :: extra ⊆ entryParts ++ extra := fun q hq => by
    simp only [entryParts, List.mem_append, List.mem_cons, List.not_mem_nil] at hq ⊢
    tauto
  have hundone := rti_undoes (m := m) hpushed hram' ((hentry.mono (by simp [entryParts])).trans (hm.mono hsub))
    (fun p hp => hextra p (by fin_cases hp <;> simp))
    (fun hx => by
      rw [State.flag, hmccr]
      rw [State.flag, State.touchedVector_ccr] at hx
      exact flag_x_of_maskedCcr hx)
    (by rw [hmrun, State.touchedVector_runState, hrun]) (s.touchedVector_pc vec).symm
  rwa [frameStores_congr hread, State.touchedVector_mem] at hundone

/-- Settles O19: SWI and TRAP enter, an interrupt enters and settles, and PC may then be anywhere. -/
theorem rtiUndoesTheEntry : Obligations.RtiUndoesTheEntry := by
  intro s hinv hrun hram
  refine ⟨fun i vec hi => ?_, fun r hreset harriving hnext =>
    ⟨s.interrupt r, step_of_interrupt hrun hreset harriving hnext, fun p => ?_⟩⟩
  · have hexec : exec i s = .next (s.enter vec false s.pc) := by
      rcases hi with ⟨rfl, rfl⟩ | ⟨tn, rfl, rfl⟩ <;> rfl
    exact ⟨_, hexec, fun p =>
      rti_undoes_enter (extra := []) hinv hrun hram ((State.withPc_unchanged _ p).mono (by simp)) (by simp)⟩
  · have hsettled := State.settleEntry_unchanged (s.enter (vectorOf r) (r == .xirq) s.pc)
    exact rti_undoes_enter (extra := [.tmp1, .tmp2, .tmp3, .queue, .fresh]) hinv hrun hram
      ((hsettled.mono (by simp)).trans ((State.withPc_unchanged _ p).mono (by simp))) (by simp)

end Sys2Proof.Machine

/-! PROOFS. The fuzzy logic family: WAV and wavr (R565, R566, R675). -/

namespace Sys2Proof.Machine

/-! ### What WAV and wavr leave unchanged -/

/-- The pieces of state that WAV and wavr may change. -/
def wavParts : List Part :=
  [.a, .b, .x, .y, .sp, .pc, .ccr, .mem, .ppage, .gpage, .devices, .pending, .arrival, .wavFrames]

/-- What every part of WAV and wavr keeps. -/
structure WavKeeps (s t : State) : Prop where
  flags : FlagsKept [.s, .x, .i] s t
  rest : Unchanged wavParts s t

theorem WavKeeps.trans {s t u : State} (h : WavKeeps s t) (h' : WavKeeps t u) : WavKeeps s u :=
  ⟨fun f hf => (h'.flags f hf).trans (h.flags f hf), h.rest.trans h'.rest⟩

theorem wavKeeps_of_unchanged {parts : List Part} {s t : State} (h : Unchanged parts s t) (hsub : parts ⊆ wavParts)
    (hccr : Part.ccr ∉ parts) : WavKeeps s t :=
  ⟨fun f _ => State.flag_eq_of_ccr (h .ccr hccr) f, h.mono hsub⟩

theorem wavKeeps_of_ccr {parts : List Part} {s t : State} (h : Unchanged parts s t) (hsub : parts ⊆ wavParts)
    (hccr : ∀ f ∈ [Flag.s, .x, .i], flagOf t.ccr f = flagOf s.ccr f) : WavKeeps s t :=
  ⟨hccr, h.mono hsub⟩

theorem wavPass_unchanged (p : State × WavLoop) : Unchanged [.devices] p.1 (wavPass p).1 :=
  (p.1.touched8_unchanged _).trans (State.touched8_unchanged _ _)

/-- Elements are read, and nothing is written. -/
theorem wavPasses_unchanged (n : Nat) (p : State × WavLoop) : Unchanged [.devices] p.1 (wavPasses n p).1 := by
  induction n generalizing p with
  | zero => exact Unchanged.refl _ p.1
  | succ n ih =>
    rw [wavPasses]
    split
    · exact wavPass_unchanged p
    · exact (wavPass_unchanged p).trans (ih _)

theorem wavFinished_unchanged (w : WavLoop) (s : State) : Unchanged [.a, .b, .x, .y, .ccr] s (wavFinished w s) := by
  intro p hp
  cases p with
  | a | b | x | y | ccr => simp at hp
  | _ => rfl

theorem wavFinished_keeps (w : WavLoop) (s : State) : WavKeeps s (wavFinished w s) :=
  wavKeeps_of_ccr (wavFinished_unchanged w s) (by decide) fun f hf => by
    have hccr : (wavFinished w s).ccr = withFlag (havocCcr s.ccr s.fresh) .z true := rfl
    rw [hccr, flagOf_withFlag, if_neg (by rintro rfl; simp at hf)]
    exact flagOf_havocCcr s.ccr s.fresh f hf

theorem arrived_keeps (s : State) : WavKeeps s s.arrived :=
  wavKeeps_of_unchanged s.arrived_unchanged (by decide) (by decide)

theorem wavOpen_keeps (s : State) : WavKeeps s (wavOpen s) := by
  have hopen : Unchanged [.a, .b, .x, .y, .ccr] s.arrived (wavOpen s) := by
    intro p hp
    cases p with
    | a | b | x | y | ccr => simp at hp
    | _ => rfl
  refine (arrived_keeps s).trans (wavKeeps_of_ccr hopen (by decide) fun f hf => ?_)
  have hccr : s.arrived.ccr = s.ccr := s.arrived_unchanged .ccr (by simp)
  rw [hccr]
  exact flagOf_havocCcr s.ccr s.fresh f hf

/-- The registers of a WAV that is stopped: the loop variables, and PC at the byte $3C. -/
def WavLoop.parked (w : WavLoop) (s : State) : State := { s with x := w.x, y := w.y, b := w.count, pc := s.pc - 1 }

theorem WavLoop.parked_unchanged (w : WavLoop) (s : State) : Unchanged [.x, .y, .b, .pc] s (w.parked s) := by
  intro p hp
  cases p with
  | x | y | b | pc => simp at hp
  | _ => rfl

/-- The three words of no known content pushed. -/
def State.pushedFreeWords (s : State) : State :=
  ((s.push16 (Config.wavWord s.fresh 2)).push16 (Config.wavWord s.fresh 1)).push16 (Config.wavWord s.fresh 0)

theorem State.pushedFreeWords_unchanged (s : State) :
    Unchanged [.sp, .mem, .ppage, .gpage, .devices] s s.pushedFreeWords :=
  ((s.push16_unchanged _).trans (State.push16_unchanged _ _)).trans (State.push16_unchanged _ _)

/-- The record of a WAV that is stopped. -/
def WavLoop.record (w : WavLoop) (s : State) (sp : Word) : WavFrame :=
  ⟨sp, Config.wavWord s.fresh 0, Config.wavWord s.fresh 1, Config.wavWord s.fresh 2, w.weighted, w.weights⟩

/-- A stop: the registers, the words, then the flags free and the record added. -/
theorem wavStopped_eq (w : WavLoop) (s : State) :
    let t := (w.parked s).pushedFreeWords.setCcr (havocCcr s.ccr s.fresh)
    wavStopped w s = { t with wavFrames := w.record s t.sp :: s.wavFrames } := rfl

theorem State.withWavFrames_unchanged (s : State) (frames : List WavFrame) :
    Unchanged [.wavFrames] s { s with wavFrames := frames } := by
  intro p hp
  cases p with
  | wavFrames => simp at hp
  | _ => rfl

theorem wavStopped_unchanged (w : WavLoop) (s : State) :
    Unchanged [.ccr, .wavFrames] (w.parked s).pushedFreeWords (wavStopped w s) := by
  rw [wavStopped_eq]
  generalize (w.parked s).pushedFreeWords = q
  exact ((q.setCcr_unchanged _).mono (by simp)).trans ((State.withWavFrames_unchanged _ _).mono (by simp))

theorem wavStopped_ccr (w : WavLoop) (s : State) : (wavStopped w s).ccr = havocCcr s.ccr s.fresh := by
  rw [wavStopped_eq]
  rfl

theorem wavStopped_keeps (w : WavLoop) (s : State) : WavKeeps s (wavStopped w s) := by
  have hrest : Unchanged wavParts s (wavStopped w s) :=
    (((w.parked_unchanged s).mono (by decide)).trans ((State.pushedFreeWords_unchanged _).mono (by decide))).trans
      ((wavStopped_unchanged w s).mono (by decide))
  exact wavKeeps_of_ccr hrest (List.Subset.refl _) fun f hf =>
    wavStopped_ccr w s ▸ flagOf_havocCcr s.ccr s.fresh f hf

theorem wavFrom_keeps (w : WavLoop) (s : State) : WavKeeps s (wavFrom w s) := by
  have hpasses := wavPasses_unchanged (s.passesToArrival.getD 256) (s, w)
  have hrun := (wavKeeps_of_unchanged hpasses (by decide) (by decide)).trans (arrived_keeps _)
  rw [wavFrom]
  split
  · exact hrun.trans (wavFinished_keeps _ _)
  · exact hrun.trans (wavStopped_keeps _ _)

theorem State.pulled16_unchanged (s : State) : Unchanged [.sp, .devices] s s.pulled16 :=
  (((s.accessed_unchanged _).trans (State.accessed_unchanged _ _)).mono (by simp)).trans
    ((State.popped_unchanged _ 2).mono (by simp))

theorem State.pulledFrame_unchanged (s : State) : Unchanged [.sp, .devices] s s.pulledFrame :=
  (s.pulled16_unchanged.trans (State.pulled16_unchanged _)).trans (State.pulled16_unchanged _)

theorem wav_keeps (s : State) : WavKeeps s (wav s) := by
  rw [wav]
  split
  · exact wavOpen_keeps s
  · exact wavFrom_keeps _ s

theorem resumeWav_keeps (s : State) : WavKeeps s (resumeWav s) := by
  have hpulled := wavKeeps_of_unchanged s.pulledFrame_unchanged (by decide) (by decide)
  rw [resumeWav]
  split
  · exact hpulled.trans (wavOpen_keeps _)
  · split
    · exact hpulled.trans (wavOpen_keeps _)
    · have hframes := State.withWavFrames_unchanged s.pulledFrame
      exact (hpulled.trans (wavKeeps_of_unchanged (hframes _) (by decide) (by decide))).trans (wavFrom_keeps _ _)

/-! ### The loop: its variables before element `n` -/

/-- The sum of the first `n` products. -/
def sumOfProducts (value weight : Nat → Nat) (n : Nat) : Nat := ((List.range n).map fun k => value k * weight k).sum

/-- The sum of the first `n` weights. -/
def sumOfWeights (weight : Nat → Nat) (n : Nat) : Nat := ((List.range n).map fun k => weight k).sum

theorem sumOfProducts_succ (value weight : Nat → Nat) (n : Nat) :
    sumOfProducts value weight (n + 1) = sumOfProducts value weight n + value n * weight n := by
  simp [sumOfProducts, List.range_succ]

theorem sumOfWeights_succ (weight : Nat → Nat) (n : Nat) :
    sumOfWeights weight (n + 1) = sumOfWeights weight n + weight n := by
  simp [sumOfWeights, List.range_succ]

/-- The loop variables of a WAV over `total` elements from `x` and `y` on, after `n` of them. -/
def wavLoopAt (x y : Word) (total : Nat) (value weight : Nat → Nat) (n : Nat) : WavLoop where
  x := x + BitVec.ofNat 16 n
  y := y + BitVec.ofNat 16 n
  count := BitVec.ofNat 8 (total - n)
  weighted := sumOfProducts value weight n % 2 ^ 32
  weights := sumOfWeights weight n % 2 ^ 16

theorem wavLoopAt_zero (x y : Word) (b : Byte) (value weight : Nat → Nat) :
    wavLoopAt x y b.toNat value weight 0 = ⟨x, y, b, 0, 0⟩ := by
  simp [wavLoopAt, sumOfProducts, sumOfWeights]

/-- A run of WAV: `states n` is the state after `n` elements are read, of which element `k` has the value `value k` and
the weight `weight k`. -/
structure WavRun (x y : Word) (total : Nat) (value weight : Nat → Nat) (states : Nat → State) : Prop where
  total_lt : total < 256
  next : ∀ n < total,
    ((states n).touched8 (x + BitVec.ofNat 16 n)).touched8 (y + BitVec.ofNat 16 n) = states (n + 1)
  value : ∀ n < total, ((states n).read8 (x + BitVec.ofNat 16 n)).toNat = value n
  weight : ∀ n < total,
    (((states n).touched8 (x + BitVec.ofNat 16 n)).read8 (y + BitVec.ofNat 16 n)).toNat = weight n

section Run

variable {x y : Word} {total : Nat} {value weight : Nat → Nat} {states : Nat → State}

theorem WavRun.count_eq_zero_iff (h : WavRun x y total value weight states) {n : Nat} (hn : n ≤ total) :
    (wavLoopAt x y total value weight n).count = 0#8 ↔ n = total := by
  have htotal := h.total_lt
  have hcount : (wavLoopAt x y total value weight n).count.toNat = total - n :=
    BitVec.toNat_ofNat .. ▸ Nat.mod_eq_of_lt (by omega)
  rw [← BitVec.toNat_inj, hcount, BitVec.toNat_ofNat]
  omega

theorem WavRun.wavPass_eq (h : WavRun x y total value weight states) {n : Nat} (hn : n < total) :
    wavPass (states n, wavLoopAt x y total value weight n) =
      (states (n + 1), wavLoopAt x y total value weight (n + 1)) := by
  have htotal := h.total_lt
  have hcount : BitVec.ofNat 8 (total - n) - 1 = BitVec.ofNat 8 (total - (n + 1)) := by
    rw [show total - n = total - (n + 1) + 1 by omega, BitVec.ofNat_add]
    bv_omega
  simp only [wavPass, wavLoopAt, h.next n hn, h.value n hn, h.weight n hn, hcount, sumOfProducts_succ,
    sumOfWeights_succ, Nat.mod_add_mod]
  refine congrArg (Prod.mk _) ?_
  rw [WavLoop.mk.injEq]
  exact ⟨add_ofNat_add x n 1, add_ofNat_add y n 1, rfl, rfl, rfl⟩

/-- From element `n` on, `m` passes read `m` elements, or all that are left. -/
theorem WavRun.wavPasses_eq (h : WavRun x y total value weight states) (m : Nat) {n : Nat} (hn : n < total) :
    wavPasses m (states n, wavLoopAt x y total value weight n) =
      (states (min (n + m) total), wavLoopAt x y total value weight (min (n + m) total)) := by
  induction m generalizing n with
  | zero => rw [wavPasses, Nat.add_zero, Nat.min_eq_left (by omega)]
  | succ m ih =>
    rw [wavPasses, h.wavPass_eq hn]
    by_cases hend : n + 1 = total
    · rw [if_pos ((h.count_eq_zero_iff hn).mpr hend), Nat.min_eq_right (by omega), hend]
    · rw [if_neg fun hzero => hend ((h.count_eq_zero_iff hn).mp hzero), ih (by omega),
        show n + 1 + m = n + (m + 1) by omega]

/-- With no request arriving WAV reads every element that is left. -/
theorem WavRun.wavFrom_finishes (h : WavRun x y total value weight states) {n : Nat} (hn : n < total)
    (hstart : (states n).arrival = none) (hend : (states total).arrival = none) :
    wavFrom (wavLoopAt x y total value weight n) (states n) =
      wavFinished (wavLoopAt x y total value weight total) (states total) := by
  have htotal := h.total_lt
  have hlimit : (states n).passesToArrival = none := by rw [State.passesToArrival, hstart]
  have harrived : (states total).arrived = states total := by rw [State.arrived, hend]
  have hmin : min (n + 256) total = total := Nat.min_eq_right (by omega)
  simp only [wavFrom, hlimit, Option.getD_none, h.wavPasses_eq 256 hn, hmin, harrived,
    if_pos ((h.count_eq_zero_iff (Nat.le_refl total)).mpr rfl)]

/-- A request that arrives before the last element stops it. -/
theorem WavRun.wavFrom_stops (h : WavRun x y total value weight states) {n k : Nat} (hk : n + k < total)
    (hlimit : (states n).passesToArrival = some k) :
    wavFrom (wavLoopAt x y total value weight n) (states n) =
      wavStopped (wavLoopAt x y total value weight (n + k)) (states (n + k)).arrived := by
  have hmin : min (n + k) total = n + k := Nat.min_eq_left (by omega)
  have hmore : (wavLoopAt x y total value weight (n + k)).count ≠ 0#8 := fun hzero =>
    Nat.ne_of_lt hk ((h.count_eq_zero_iff (by omega)).mp hzero)
  simp only [wavFrom, hlimit, Option.getD_some, h.wavPasses_eq k (show n < total by omega), hmin, if_neg hmore]

end Run

/-- The two halves of the 32-bit sum. -/
theorem extractLsb'_halves (v : BitVec 32) : v.extractLsb' 16 16 ++ v.extractLsb' 0 16 = v := by
  apply BitVec.eq_of_getLsbD_eq
  intro i hi
  rw [BitVec.getLsbD_append]
  split
  · simp [*]
  · simp only [BitVec.getLsbD_extractLsb', show i - 16 < 16 by omega, decide_true, Bool.true_and,
      show 16 + (i - 16) = i by omega]

/-- What the end of WAV leaves (R565). -/
theorem wavFinished_gives (x y : Word) (total : Nat) (value weight : Nat → Nat) (n : Nat) (u : State) :
    let t := wavFinished (wavLoopAt x y total value weight n) u
    t.y ++ t.d = BitVec.ofNat 32 (sumOfProducts value weight n) ∧ t.x = BitVec.ofNat 16 (sumOfWeights weight n) ∧
      t.flag .z = true := by
  intro t
  have hd : t.d = (BitVec.ofNat 32 (sumOfProducts value weight n % 2 ^ 32)).extractLsb' 0 16 := wordOf_high_low _
  have hy : t.y = (BitVec.ofNat 32 (sumOfProducts value weight n % 2 ^ 32)).extractLsb' 16 16 := rfl
  have hx : t.x = BitVec.ofNat 16 (sumOfWeights weight n % 2 ^ 16) := rfl
  have hz : t.flag .z = flagOf (withFlag (havocCcr u.ccr u.fresh) .z true) .z := rfl
  refine ⟨?_, ?_, ?_⟩
  · rw [hy, hd, extractLsb'_halves]
    exact BitVec.eq_of_toNat_eq (by simp)
  · rw [hx]
    exact BitVec.eq_of_toNat_eq (by simp)
  · rw [hz, flagOf_withFlag, if_pos rfl]

/-! ### WAV read element by element -/

theorem wavRun_elements (s : State) (x y : Word) (b : Byte) :
    WavRun x y b.toNat (s.elementValue x y) (s.elementWeight x y) (s.elementsRead x y) where
  total_lt := b.isLt
  next _ _ := rfl
  value _ _ := rfl
  weight _ _ := rfl

theorem State.elementsRead_unchanged (s : State) (x y : Word) (n : Nat) :
    Unchanged [.devices] s (s.elementsRead x y n) := by
  induction n with
  | zero => exact Unchanged.refl _ s
  | succ n ih => exact (ih.trans (State.touched8_unchanged _ _)).trans (State.touched8_unchanged _ _)

/-- WAV begins before its first element. -/
theorem wav_eq_wavFrom {s : State} (hb : s.b ≠ 0#8) :
    wav s = wavFrom (wavLoopAt s.x s.y s.b.toNat (s.elementValue s.x s.y) (s.elementWeight s.x s.y) 0)
      (s.elementsRead s.x s.y 0) := by
  rw [wav, if_neg hb, wavLoopAt_zero, State.elementsRead]

/-- An undisturbed WAV. -/
theorem wav_of_no_arrival {s : State} (hb : s.b ≠ 0#8) (harrival : s.arrival = none) :
    wav s = wavFinished (wavLoopAt s.x s.y s.b.toNat (s.elementValue s.x s.y) (s.elementWeight s.x s.y) s.b.toNat)
      (s.elementsRead s.x s.y s.b.toNat) := by
  have hpos : 0 < s.b.toNat := Nat.pos_of_ne_zero fun hzero => hb (BitVec.eq_of_toNat_eq hzero)
  have hnone : (s.elementsRead s.x s.y s.b.toNat).arrival = none :=
    (s.elementsRead_unchanged s.x s.y s.b.toNat .arrival (by simp)).trans harrival
  rw [wav_eq_wavFrom hb, (wavRun_elements s s.x s.y s.b).wavFrom_finishes hpos harrival hnone]

/-! ### WAV stopped and resumed in plain memory -/

theorem State.Flat.elementsRead_eq {s : State} (h : s.Flat) (x y : Word) (n : Nat) : s.elementsRead x y n = s := by
  induction n with
  | zero => rfl
  | succ n ih => rw [State.elementsRead, ih, h.touched8_eq, h.touched8_eq]

theorem State.Flat.elementValue_eq {s : State} (h : s.Flat) (x y : Word) (n : Nat) :
    s.elementValue x y n = (s.read8 (x + BitVec.ofNat 16 n)).toNat := by
  rw [State.elementValue, h.elementsRead_eq]

theorem State.Flat.elementWeight_eq {s : State} (h : s.Flat) (x y : Word) (n : Nat) :
    s.elementWeight x y n = (s.read8 (y + BitVec.ofNat 16 n)).toNat := by
  rw [State.elementWeight, h.elementsRead_eq, h.touched8_eq]

theorem State.Flat.pulled16_eq {s : State} (h : s.Flat) : s.pulled16 = s.popped 2 := by
  rw [State.pulled16, h.touched16_eq]

theorem State.Flat.popped {s : State} (h : s.Flat) (n : Word) : (s.popped n).Flat := h

/-- A WAV that is stopped with the loop variables `w` in `s`: the pointers and the count in their registers, six bytes
pushed, and a record that they are the bytes of (R566, D9). -/
structure WavParked (w : WavLoop) (s t : State) : Prop where
  sp : t.sp = s.sp - 6
  x : t.x = w.x
  y : t.y = w.y
  b : t.b = w.count
  arrival : t.arrival = s.arrival
  flat : t.Flat
  frame : ∃ f rest, t.wavFrames = f :: rest ∧ f.sp = t.sp ∧ f.weighted = w.weighted ∧ f.weights = w.weights ∧
    t.Holds t.sp [f.word0.high, f.word0.low, f.word1.high, f.word1.low, f.word2.high, f.word2.low]
  away : ∀ addr, (∀ j, 1 ≤ j → j ≤ 6 → s.sp - BitVec.ofNat 16 j ≠ addr) → t.read8 addr = s.read8 addr

theorem State.pushedFreeWords_pushed {s : State} (hinv : s.Inv) (hflat : s.Flat) :
    ∃ stores, PlainPushed stores [(Config.wavWord s.fresh 0).high, (Config.wavWord s.fresh 0).low,
      (Config.wavWord s.fresh 1).high, (Config.wavWord s.fresh 1).low, (Config.wavWord s.fresh 2).high,
      (Config.wavWord s.fresh 2).low] s s.pushedFreeWords := by
  have hram : s.PlainRam (s.sp - BitVec.ofNat 16 6) 6 := fun k _ => hflat _
  have h1 := (plainPushed_nil hinv).push16 hram (by simp) (by omega) (Config.wavWord s.fresh 2)
  have h2 := h1.push16 hram (by simp) (by omega) (Config.wavWord s.fresh 1)
  exact ⟨_, h2.push16 hram (by simp) (by omega) (Config.wavWord s.fresh 0)⟩

theorem wavStopped_parked {s : State} (hinv : s.Inv) (hflat : s.Flat) (w : WavLoop) :
    WavParked w s (wavStopped w s) := by
  have hregs := w.parked_unchanged s
  have hparkedflat : (w.parked s).Flat := hflat.of_unchanged hregs (by simp)
  have hparkedinv : (w.parked s).Inv := (keeps_of_unchanged hregs (by simp)).inv hinv
  obtain ⟨stores, hpushed⟩ := State.pushedFreeWords_pushed hparkedinv hparkedflat
  have hlast := wavStopped_unchanged w s
  have hall : Unchanged [.sp, .mem, .ccr, .wavFrames] (w.parked s) (wavStopped w s) :=
    (hpushed.rest.mono (by simp)).trans (hlast.mono (by simp))
  have hsp : (wavStopped w s).sp = (w.parked s).pushedFreeWords.sp := hlast .sp (by simp)
  have hmem : (wavStopped w s).mem = (w.parked s).pushedFreeWords.mem := hlast .mem (by simp)
  have hstoppedflat : (wavStopped w s).Flat := hparkedflat.of_unchanged hall (by simp)
  have hpushedflat : (w.parked s).pushedFreeWords.Flat := hparkedflat.of_unchanged hpushed.rest (by simp)
  refine ⟨hsp.trans hpushed.sp, hall .x (by simp), hall .y (by simp), hall .b (by simp), hall .arrival (by simp),
    hstoppedflat, ?frame, fun addr haway => ?away⟩
  case frame =>
    refine ⟨w.record s (wavStopped w s).sp, s.wavFrames, ?_, rfl, rfl, rfl, fun k hk => ?_⟩
    · rw [wavStopped_eq]
    · rw [hpushedflat.read8_congr hstoppedflat hmem, hsp]
      exact hpushed.holds k hk
  case away =>
    rw [hpushedflat.read8_congr hstoppedflat hmem, hpushedflat.read8_eq, hflat.read8_eq]
    refine hpushed.mem_away fun j hpos hj heq => haway j hpos hj (BitVec.eq_of_toNat_eq ?_)
    rw [hparkedflat] at heq
    exact Place.cell.inj heq

/-- PC is no part of what wavr resumes from. -/
theorem WavParked.withPc {w : WavLoop} {s t : State} (h : WavParked w s t) (p : Word) :
    WavParked w s { t with pc := p } :=
  ⟨h.sp, h.x, h.y, h.b, h.arrival, h.flat, h.frame, h.away⟩

theorem WavParked.pulledFrame_eq {w : WavLoop} {s t : State} (h : WavParked w s t) :
    t.pulledFrame = t.popped 6 := by
  have h1 := h.flat.pulled16_eq
  have h2 := (h.flat.popped 2).pulled16_eq
  have h3 := ((h.flat.popped 2).popped 2).pulled16_eq
  have hsix : ((t.popped 2).popped 2).popped 2 = t.popped 6 := by
    simp only [State.popped]
    rw [show t.sp + 2 + 2 + 2 = t.sp + 6 by bv_omega]
  rw [State.pulledFrame, h1, h2, h3, hsix]

/-- wavr finds the record and goes on with its sums. -/
theorem WavParked.resumeWav_eq {w : WavLoop} {s t : State} (h : WavParked w s t) (hcount : w.count ≠ 0#8) :
    ∃ frames, resumeWav t = wavFrom w { t.popped 6 with wavFrames := frames } := by
  obtain ⟨f, rest, hframes, hsp, hweighted, hweights, hholds⟩ := h.frame
  have h0 : t.top16 = f.word0 := State.read16_of_holds hholds
  have h2 : (t.popped 2).top16 = f.word1 := State.read16_of_holds (State.holds_drop_word hholds)
  have h4 : ((t.popped 2).popped 2).top16 = f.word2 :=
    State.read16_of_holds (State.holds_drop_word (State.holds_drop_word hholds))
  have hmatch : t.matchesFrame f = true := by
    rw [State.matchesFrame, h.flat.pulled16_eq, (h.flat.popped 2).pulled16_eq, h0, h2, h4, hsp]
    simp
  have hfind : t.wavFrames.find? t.matchesFrame = some f := by rw [hframes, List.find?_cons_of_pos hmatch]
  have hloop : (⟨t.x, t.y, t.b, f.weighted, f.weights⟩ : WavLoop) = w := by
    rw [h.x, h.y, h.b, hweighted, hweights]
  have hb : t.b ≠ 0#8 := h.b ▸ hcount
  refine ⟨t.wavFrames.erase f, ?_⟩
  rw [resumeWav, hfind]
  simp only [if_neg hb, hloop, h.pulledFrame_eq]

/-- In plain memory that stays the states of a run are one. -/
theorem State.Flat.wavRun {u : State} (h : u.Flat) {x y : Word} {b : Byte} {value weight : Nat → Nat}
    (hvalue : ∀ n < b.toNat, (u.read8 (x + BitVec.ofNat 16 n)).toNat = value n)
    (hweight : ∀ n < b.toNat, (u.read8 (y + BitVec.ofNat 16 n)).toNat = weight n) :
    WavRun x y b.toNat value weight fun _ => u where
  total_lt := b.isLt
  next n _ := by rw [h.touched8_eq, h.touched8_eq]
  value := hvalue
  weight n hn := by rw [h.touched8_eq, hweight n hn]

/-- A WAV that is stopped after `n` of its elements in plain memory, and resumed with PC anywhere, ends with the sums
over all of them. -/
theorem WavParked.resume_gives {s v t : State} {n : Nat} (hflat : s.Flat) (hn : n < s.b.toNat)
    (h : WavParked (wavLoopAt s.x s.y s.b.toNat (s.elementValue s.x s.y) (s.elementWeight s.x s.y) n) v t)
    (hv : Unchanged [.pending, .arrival] s v) (harrival : v.arrival = none)
    (hclear : ∀ j m, 1 ≤ j → j ≤ 6 → m < s.b.toNat →
      s.sp - BitVec.ofNat 16 j ≠ s.x + BitVec.ofNat 16 m ∧ s.sp - BitVec.ofNat 16 j ≠ s.y + BitVec.ofNat 16 m) :
    Runs .wavr t fun u =>
      u.y ++ u.d = BitVec.ofNat 32 (sumOfProducts (s.elementValue s.x s.y) (s.elementWeight s.x s.y) s.b.toNat) ∧
        u.x = BitVec.ofNat 16 (sumOfWeights (s.elementWeight s.x s.y) s.b.toNat) ∧
        u.flag .z = true ∧ u.sp = s.sp ∧ u.pc = t.pc := by
  have hmore : (wavLoopAt s.x s.y s.b.toNat (s.elementValue s.x s.y) (s.elementWeight s.x s.y) n).count ≠ 0#8 :=
    fun hzero => Nat.ne_of_lt hn (((wavRun_elements s s.x s.y s.b).count_eq_zero_iff (by omega)).mp hzero)
  have hvsp : v.sp = s.sp := hv .sp (by simp)
  have hread : ∀ addr, (∀ j, 1 ≤ j → j ≤ 6 → s.sp - BitVec.ofNat 16 j ≠ addr) → t.read8 addr = s.read8 addr :=
    fun addr haway => (h.away addr (by rwa [hvsp])).trans
      (hflat.read8_congr (hflat.of_unchanged hv (by simp)) (hv .mem (by simp)) addr)
  obtain ⟨frames, hresume⟩ := h.resumeWav_eq hmore
  have hrun : WavRun s.x s.y s.b.toNat (s.elementValue s.x s.y) (s.elementWeight s.x s.y)
      fun _ => { t.popped 6 with wavFrames := frames } := by
    refine State.Flat.wavRun (u := { t.popped 6 with wavFrames := frames }) h.flat (fun m hm => ?_) (fun m hm => ?_)
    · rw [hflat.elementValue_eq]
      exact congrArg BitVec.toNat (hread _ fun j hpos hj => (hclear j m hpos hj hm).1)
    · rw [hflat.elementWeight_eq]
      exact congrArg BitVec.toNat (hread _ fun j hpos hj => (hclear j m hpos hj hm).2)
  have hnone : t.arrival = none := h.arrival.trans harrival
  have hfinish := hrun.wavFrom_finishes hn hnone hnone
  refine ⟨_, congrArg Host.Outcome.next (hresume.trans hfinish), ?_⟩
  obtain ⟨hproducts, hweights, hz⟩ := wavFinished_gives s.x s.y s.b.toNat (s.elementValue s.x s.y)
    (s.elementWeight s.x s.y) s.b.toNat { t.popped 6 with wavFrames := frames }
  have hsp : t.sp + 6 = s.sp := by
    rw [h.sp, hvsp]
    bv_omega
  exact ⟨hproducts, hweights, hz, hsp, rfl⟩

/-- A WAV in plain memory that an enabled request stops after `k + 1` of its elements. -/
theorem wav_of_arrival {s : State} {k : Nat} {r : Request} (hflat : s.Flat) (harrival : s.arrival = some (k, r))
    (henabled : s.interruptible r = true) (hk : k + 1 < s.b.toNat) :
    wav s = wavStopped (wavLoopAt s.x s.y s.b.toNat (s.elementValue s.x s.y) (s.elementWeight s.x s.y) (k + 1))
      s.arrived := by
  have hb : s.b ≠ 0#8 := fun hzero => by simp [hzero] at hk
  have hlimit : s.passesToArrival = some (k + 1) := by simp [State.passesToArrival, harrival, henabled]
  have hstops := (wavRun_elements s s.x s.y s.b).wavFrom_stops (n := 0) (k := k + 1) (by omega) hlimit
  rw [wav_eq_wavFrom hb, hstops, Nat.zero_add, hflat.elementsRead_eq]

theorem wavStopped_pc_pending (w : WavLoop) (s : State) :
    (wavStopped w s).pc = s.pc - 1 ∧ (wavStopped w s).pending = s.pending := by
  have hlast := wavStopped_unchanged w s
  have hwords := State.pushedFreeWords_unchanged (w.parked s)
  exact ⟨(hlast .pc (by simp)).trans (hwords .pc (by simp)),
    (hlast .pending (by simp)).trans (hwords .pending (by simp))⟩

/-- Settles O56: the sums are those of the loop variables after the last element, whether or not it was stopped
between. -/
theorem weightedAverage : Obligations.WeightedAverage := by
  intro s products weights
  refine ⟨fun i hi => ?keeps, fun hb harrival => ?undisturbed,
    fun k r hinv hflat harrival henabled hk hclear => ?resumed⟩
  case keeps =>
    rcases hi with rfl | rfl
    · exact ⟨_, rfl, (wav_keeps s).flags, (wav_keeps s).rest⟩
    · exact ⟨_, rfl, (resumeWav_keeps s).flags, (resumeWav_keeps s).rest⟩
  case undisturbed =>
    have hwav := wav_of_no_arrival hb harrival
    have hunchanged := wavFinished_unchanged (wavLoopAt s.x s.y s.b.toNat (s.elementValue s.x s.y)
      (s.elementWeight s.x s.y) s.b.toNat) (s.elementsRead s.x s.y s.b.toNat)
    obtain ⟨hproducts, hweights, hz⟩ := wavFinished_gives s.x s.y s.b.toNat (s.elementValue s.x s.y)
      (s.elementWeight s.x s.y) s.b.toNat (s.elementsRead s.x s.y s.b.toNat)
    refine ⟨wav s, rfl, ?_, ?_, ?_, (wav_keeps s).flags, ?_⟩
    all_goals rw [hwav]
    · exact hproducts
    · exact hweights
    · exact hz
    · exact hunchanged
  case resumed =>
    have hv := s.arrived_unchanged
    have hvflat : s.arrived.Flat := hflat.of_unchanged hv (by simp)
    have hvinv : s.arrived.Inv := (keeps_of_unchanged hv (by simp)).inv hinv
    have harrived : s.arrived = { s with pending := s.pending ++ [r], arrival := none } := by
      rw [State.arrived, harrival]
    have hparked := wavStopped_parked hvinv hvflat
      (wavLoopAt s.x s.y s.b.toNat (s.elementValue s.x s.y) (s.elementWeight s.x s.y) (k + 1))
    obtain ⟨hpc, hpending⟩ := wavStopped_pc_pending
      (wavLoopAt s.x s.y s.b.toNat (s.elementValue s.x s.y) (s.elementWeight s.x s.y) (k + 1)) s.arrived
    refine ⟨_, congrArg Host.Outcome.next (wav_of_arrival hflat harrival henabled hk), ?_, ?_, ?_, ?_⟩
    · rw [hparked.sp, hv .sp (by simp)]
    · rw [hpc, hv .pc (by simp)]
    · rw [hpending, harrived]
    · exact (hparked.withPc s.pc).resume_gives hflat hk hv (by rw [harrived]) hclear

end Sys2Proof.Machine
